-- ==== Sys2Proof/Word.lean ====
section
/-! DEFINITION. The sizes of R10, and the byte, the fixed-width buffers and the typed values that are made of them
(spec/00_scope.md R10, R11; spec/10_state.md R24 to R26; spec/20_memory.md R30, R31). The other parameters of R10
stand in Config. -/

namespace Sys2Proof.Config

/-- KEY_BYTES (R10). -/
@[simp] abbrev keyBytes : Nat := 16
/-- BLOCK_BYTES (R10, R33). -/
@[simp] abbrev blockBytes : Nat := 16
/-- SEQ_BITS (R10). -/
@[simp] abbrev seqBits : Nat := 8
/-- DEV_BITS (R10). -/
@[simp] abbrev devBits : Nat := 8
/-- FIELD_BITS (R10). -/
@[simp] abbrev fieldBits : Nat := 16
/-- NSLOTS (R10). -/
@[simp] abbrev nSlots : Nat := 4
/-- SLOT_BITS (R10). -/
@[simp] abbrev slotBits : Nat := 2
/-- REC_BYTES (R10, R53, R54). -/
@[simp] abbrev recBytes : Nat := 11
/-- FRAME_BYTES = 1 + REC_BYTES (R10, R51). -/
@[simp] abbrev frameBytes : Nat := 1 + recBytes

end Sys2Proof.Config

namespace Sys2Proof

/-- The addressable unit, 8 bits (R31). -/
abbrev Byte := BitVec 8
/-- An unsigned field value, FIELD_BITS = 16 bits (R10, R11). -/
abbrev U16 := BitVec Config.fieldBits
/-- A signed two's-complement field value of FIELD_BITS = 16 bits, -32768 to 32767 (R10, R11). -/
abbrev S16 := Int16
/-- The sender's sequence number, SEQ_BITS = 8 bits (R10). -/
abbrev SequenceNumber := BitVec Config.seqBits
/-- The sender identifier, DEV_BITS = 8 bits (R10). -/
abbrev DeviceId := BitVec Config.devBits
/-- The key, KEY_BYTES = 16 bytes, index 0 the first byte the host supplies (R10, R62). -/
abbrev Key := Vector Byte Config.keyBytes
/-- A nonce, counter or keystream block, BLOCK_BYTES = 16 bytes (R10, R61). -/
abbrev Block := Vector Byte Config.blockBytes
/-- A plaintext record, REC_BYTES = 11 bytes (R10, R53, R54). -/
abbrev Record := Vector Byte Config.recBytes
/-- The transformed record as it stands in a frame, REC_BYTES = 11 bytes (R51). -/
abbrev Ciphertext := Vector Byte Config.recBytes
/-- A wire frame, FRAME_BYTES = 12 bytes (R10, R51). -/
abbrev Frame := Vector Byte Config.frameBytes
/-- The type of the block cipher `E`: a total function of a key and a block (R80). -/
abbrev Cipher := Key → Block → Block

/-- `zeros(n)` of R11. -/
def zeros (n : Nat) : Vector Byte n := Vector.replicate n 0

/-- The sensors a display slot can name (R25, R60). -/
inductive SensorKind where
  | temperature
  | illuminance
  | humidity
  | pressure
  deriving DecidableEq, Repr

/-- The display order of a ControlMessage: `order[0]` to `order[3]`, NSLOTS = 4 (R10, R25). -/
abbrev Order := Vector SensorKind Config.nSlots

/-- One sampled environmental snapshot, four independent raw 16-bit values (R24). -/
structure Measurement where
  temperature : S16
  humidity : U16
  pressure : U16
  illuminance : S16
  deriving DecidableEq, Repr

/-- The frame type (R26). -/
inductive FrameType where
  | measurement
  | control
  deriving DecidableEq, Repr

/-- The payload of a typed frame: a Measurement or a ControlMessage (R26). -/
inductive TypedRecord where
  | measurement (m : Measurement)
  | control (order : Order)
  deriving DecidableEq, Repr

/-- A frame as a typed value (R26): never state, it is what a host asks to have built. -/
structure TypedFrame where
  sequenceNumber : SequenceNumber
  deviceId : DeviceId
  payload : TypedRecord
  deriving DecidableEq, Repr

end Sys2Proof
end

