-- ==== Sys2Proof/Config.lean ====
section
/-! DEFINITION. The parameters of the block (spec/00_scope.md R10; spec/92_eei_decisions.md, the open
parameters) and the free values. A constant without a body is one the spec leaves open: nothing can be
proved of its value. The sizes stand in Word.lean, whose types are made of them. -/

namespace Sys2Proof.Config

/-- The block cipher `E`, OPEN: total and deterministic, nothing else (R80, D4). DESIGN CHOICE, log entry 1. -/
opaque E : Cipher

/-- The value KEY holds at power-on, which the spec leaves unspecified (R28). DESIGN CHOICE, log entry 2. -/
opaque powerOnKey : Key

/-- The value KEY holds after the n-th reset event, given what it held before: unspecified
(R28, R170, R171). DESIGN CHOICE, log entry 2. -/
opaque resetKey : Nat → Key → Key

/-- How far MAX_IN_LEN lies above 13. DESIGN CHOICE, log entry 3. -/
opaque maxInExtra : Nat

/-- MAX_IN_LEN, OPEN: the largest byte count the PARSE port can present; at least 13, as D15 recommends
(R10, R27). DESIGN CHOICE, log entry 3. -/
def maxInLen : Nat := 13 + maxInExtra

/-- SEQ0, OPEN: the host's first sequence number (R162, D24). DESIGN CHOICE, log entry 11. -/
opaque seq0 : SequenceNumber

/-- TAG_MEAS (R10, R56). -/
abbrev tagMeas : Byte := 1
/-- TAG_CTRL (R10, R56). -/
abbrev tagCtrl : Byte := 2
/-- SEQ_NONCE_INDEX (R10, R61). -/
abbrev seqNonceIndex : Nat := 15
/-- CTRL_ORDER_OFF, record-relative (R10, R40; C1 and D8 choose 4 over 3). DESIGN CHOICE, log entry 4. -/
@[simp] abbrev ctrlOrderOff : Nat := 4
/-- How many unused bytes of a Control record stand before its order byte, from byte 2 on (R54). -/
@[simp] abbrev ctrlBytesBefore : Nat := ctrlOrderOff - 2
/-- How many unused bytes of a Control record stand after its order byte (R54). -/
@[simp] abbrev ctrlBytesAfter : Nat := recBytes - 1 - ctrlOrderOff
/-- The deviceId placeholder the Record Codec writes (R95, R99, D9). -/
abbrev deviceIdPlaceholder : DeviceId := 0

end Sys2Proof.Config
end

