-- ==== Sys2Proof/Machine/CipherEngine.lean ====
section
/-! DEFINITION. The Cipher Engine: CTR_INC, KSBLOCK and XFORM (spec/40_cipher_engine.md R81, R82, R89), over any block
cipher `E` and any buffer length. None of them can fail (R85) or writes state. The counter advance and the pairing are the spec's decisions D5 and D6
(log entry 13). -/

namespace Sys2Proof.Machine

/-- The carry loop of CTR_INC from byte `i` down to byte 0 (R89). -/
def ctrCarry (blk : Block) : (i : Nat) → (h : i < Config.blockBytes) → Block
  | 0, _ => blk.set 0 (blk[0] + 1)
  | i + 1, h =>
    let d := blk.set (i + 1) (blk[i + 1] + 1)
    if d[i + 1] ≠ 0 then d else ctrCarry d i (Nat.lt_of_succ_lt h)

/-- CTR_INC: the block plus 1, read as a big-endian integer modulo 2^128 (R89, R33, D5). -/
def ctrInc (blk : Block) : Block := ctrCarry blk (Config.blockBytes - 1) (by decide)

/-- `CTR_INC^j` (R81). -/
def ctrIncIter : Nat → Block → Block
  | 0, nb => nb
  | j + 1, nb => ctrInc (ctrIncIter j nb)

/-- KSBLOCK: keystream block `j`, block 0 the encryption of the nonce block as supplied (R81, D6). -/
def ksBlock (E : Cipher) (key : Key) (nb : Block) (j : Nat) : Block := E key (ctrIncIter j nb)

/-- XFORM: byte `i` XORed with byte `i mod 16` of keystream block `i div 16` (R82, R84). -/
def xform {L : Nat} (E : Cipher) (key : Key) (buf : Vector Byte L) (nb : Block) : Vector Byte L :=
  Vector.ofFn fun i => buf[i] ^^^ (ksBlock E key nb (i.val / Config.blockBytes))[i.val % Config.blockBytes]'(Nat.mod_lt _ (by decide))

end Sys2Proof.Machine
end

