-- ==== Sys2Proof/Machine/Operands.lean ====
section
/-! DEFINITION. Operand access and the Record Codec: MemRead and MemWrite (spec/20_memory.md R34, R35), the
signed fields and slot codes (spec/00_scope.md R11, spec/30_encoding.md R57 to R60), and the six pure operations
of spec/41_record_codec.md R95 to R100. None of them reads or writes state. -/

namespace Sys2Proof.Machine

/-- `MemRead(buf, off, 1)` (R34). -/
def memRead8 {L : Nat} (buf : Vector Byte L) (off : Nat) (h : off + 1 ≤ L := by decide) : Byte :=
  buf[off]

/-- `MemRead(buf, off, 2)`, big-endian (R34, R32). -/
def memRead16 {L : Nat} (buf : Vector Byte L) (off : Nat) (h : off + 2 ≤ L := by decide) : U16 :=
  buf[off] ++ buf[off + 1]

/-- `MemWrite(buf, off, 1, v)` (R35). -/
def memWrite8 {L : Nat} (buf : Vector Byte L) (off : Nat) (v : Byte) (h : off + 1 ≤ L := by decide) :
    Vector Byte L :=
  buf.set off v

/-- `MemWrite(buf, off, 2, v)`: `v[15:8]` at `off`, `v[7:0]` at `off + 1` (R35, R32). -/
def memWrite16 {L : Nat} (buf : Vector Byte L) (off : Nat) (v : U16) (h : off + 2 ≤ L := by decide) :
    Vector Byte L :=
  (buf.set off (v.extractLsb' 8 8)).set (off + 1) (v.extractLsb' 0 8)

/-- `to_u16`: the two's-complement image of a signed value (R11). -/
def toU16 (x : S16) : U16 := x.toBitVec

/-- `to_s16`: the signed value of a 16-bit image (R11). -/
def toS16 (w : U16) : S16 := Int16.ofBitVec w

/-- The 2-bit code of a sensor kind (R60). -/
def kindCode : SensorKind → BitVec Config.slotBits
  | .temperature => 0
  | .illuminance => 1
  | .humidity => 2
  | .pressure => 3

/-- The sensor kind of a 2-bit code: every code has one (R60). -/
def kindOfCode (c : BitVec Config.slotBits) : SensorKind :=
  if c = 0 then .temperature else if c = 1 then .illuminance else if c = 2 then .humidity else .pressure

/-- PACK_ORDER: `order[3], order[2], order[1], order[0]`, slot 0 in the least-significant pair
(R59, R97; D29 for slots 1 to 3). -/
def packOrder (order : Order) : Byte :=
  kindCode order[3] ++ kindCode order[2] ++ kindCode order[1] ++ kindCode order[0]

/-- UNPACK_ORDER: slot `i` is `b[2i+1 : 2i]` (R59, R98). -/
def unpackOrder (b : Byte) : Order :=
  Vector.ofFn fun i => kindOfCode (b.extractLsb' (Config.slotBits * i.val) Config.slotBits)

/-- The tag byte of a frame type (R56). -/
def frameTag : FrameType → Byte
  | .measurement => Config.tagMeas
  | .control => Config.tagCtrl

/-- The frame type of a typed record (R26). -/
def frameTypeOf : TypedRecord → FrameType
  | .measurement _ => .measurement
  | .control _ => .control

/-- ENC_MEAS (R95). -/
def encMeas (m : Measurement) : Record :=
  let r := zeros Config.recBytes
  let r := memWrite8 r 0 Config.tagMeas
  let r := memWrite8 r 1 Config.deviceIdPlaceholder
  let r := memWrite16 r 2 (toU16 m.temperature)
  let r := memWrite16 r 4 m.humidity
  let r := memWrite16 r 6 m.pressure
  memWrite16 r 8 (toU16 m.illuminance)

/-- DEC_MEAS (R96). -/
def decMeas (r : Record) : Measurement where
  temperature := toS16 (memRead16 r 2)
  humidity := memRead16 r 4
  pressure := memRead16 r 6
  illuminance := toS16 (memRead16 r 8)

/-- ENC_CTRL (R99). -/
def encCtrl (order : Order) : Record :=
  let r := zeros Config.recBytes
  let r := memWrite8 r 0 Config.tagCtrl
  let r := memWrite8 r 1 Config.deviceIdPlaceholder
  memWrite8 r Config.ctrlOrderOff (packOrder order)

/-- DEC_CTRL (R100). -/
def decCtrl (r : Record) : Order :=
  unpackOrder (memRead8 r Config.ctrlOrderOff)

end Sys2Proof.Machine
end

