-- ==== Sys2Proof/Syntax.lean ====
section
/-! DEFINITION. The instructions: one constructor per row of spec/opcode_table.json. -/

namespace Sys2Proof

/-- The seven rows of the opcode table. The first four are the commands of the command port (R63, R64); the
last three are the internal formats the block matches inside PARSE: the wire frame, and the two
plaintext records its decrypted tag selects (R51, R53, R54, R56, R70). -/
inductive Instr where
  /-- INIT: `key`. -/
  | init (key : Key)
  /-- BUILDM: the Measurement's four fields, deviceId, sequenceNumber. -/
  | buildm (m : Measurement) (deviceId : DeviceId) (sequenceNumber : SequenceNumber)
  /-- BUILDC: `order[0..3]`, deviceId, sequenceNumber. -/
  | buildc (order : Order) (deviceId : DeviceId) (sequenceNumber : SequenceNumber)
  /-- PARSE: the received bytes, of any length. -/
  | parse (data : List Byte)
  /-- REC.MEAS: a plaintext Measurement record, its ignored pad byte with it (R53, R67). -/
  | recMeas (deviceId : DeviceId) (m : Measurement) (pad : Byte)
  /-- REC.CTRL: a plaintext Control record, its ignored bytes before and after the order byte with it (R54, R67). -/
  | recCtrl (deviceId : DeviceId) (order : Order) (unusedHi : Vector Byte Config.ctrlBytesBefore)
      (unusedLo : Vector Byte Config.ctrlBytesAfter)
  /-- FRAME: a 12-byte wire frame (R51). -/
  | frame (sequenceNumber : SequenceNumber) (ciphertext : Ciphertext)
  deriving DecidableEq, Repr

end Sys2Proof
end

