-- ==== Sys2Proof/Decode.lean ====
section
/-! DEFINITION. Decoding and encoding (spec/30_encoding.md). The block decodes three things: the `op` of a command
(R63), the bytes PARSE is given as a wire frame (R51, R121), and the tag of a decrypted record (R56, R66). -/

namespace Sys2Proof

/-- What stands on the command port: the 2-bit `op` and the operand lines, each a separate typed field
(R27, R63, R64). An `op` reads its own lines and no others. DESIGN CHOICE, log entry 5. -/
structure Command where
  op : BitVec 2
  key : Key
  measurement : Measurement
  order : Order
  deviceId : DeviceId
  sequenceNumber : SequenceNumber
  data : List Byte
  deriving DecidableEq, Repr

/-- A bit pattern of one of the table's formats: CMD, M or C, F (R50). -/
inductive Encoded where
  | command (c : Command)
  | record (r : Record)
  | frame (data : List Byte)
  deriving DecidableEq, Repr

/-- Why a bit pattern is no instruction. -/
inductive DecodeError where
  /-- The bytes are not exactly FRAME_BYTES long (R121). -/
  | wrongLength
  /-- The record's tag is neither 1 nor 2 (R66, R123). -/
  | unknownTag
  deriving DecidableEq, Repr

/-- The command an `op` selects, with its operands; no `op` is illegal (R63, R64). -/
def decodeCommand (c : Command) : Instr :=
  if c.op = 0 then .init c.key
  else if c.op = 1 then .buildm c.measurement c.deviceId c.sequenceNumber
  else if c.op = 2 then .buildc c.order c.deviceId c.sequenceNumber
  else .parse c.data

/-- The ignored bytes of a Control record before its order byte: bytes 2 to CTRL_ORDER_OFF - 1 (R54, R67). -/
def ctrlUnusedHi (r : Record) : Vector Byte Config.ctrlBytesBefore :=
  Vector.ofFn fun k => r[2 + k.val]'(Nat.lt_of_lt_of_le (Nat.add_lt_add_left k.isLt 2) (by decide))

/-- The ignored bytes of a Control record after its order byte, up to the last (R54, R67). -/
def ctrlUnusedLo (r : Record) : Vector Byte Config.ctrlBytesAfter :=
  Vector.ofFn fun k => r[Config.ctrlOrderOff + 1 + k.val]'(Nat.lt_of_lt_of_le (Nat.add_lt_add_left k.isLt _) (by decide))

/-- A record's format is the one its tag byte selects (R56, R66, R123). -/
def decodeRecord (r : Record) : Except DecodeError Instr :=
  let tag := Machine.memRead8 r 0
  if tag = Config.tagMeas then
    .ok (.recMeas (Machine.memRead8 r 1) (Machine.decMeas r) (Machine.memRead8 r (Config.recBytes - 1)))
  else if tag = Config.tagCtrl then
    .ok (.recCtrl (Machine.memRead8 r 1) (Machine.decCtrl r) (ctrlUnusedHi r) (ctrlUnusedLo r))
  else .error .unknownTag

/-- `data` as a frame, if its length is exactly FRAME_BYTES (R121, R48). -/
def frameOfData (data : List Byte) : Option Frame :=
  if h : data.length = Config.frameBytes then some ⟨data.toArray, h⟩ else none

/-- `frame[1..11]` (R51). -/
def frameCiphertext (f : Frame) : Ciphertext := Vector.ofFn fun i => f[i.val + 1]'(by show _ < 1 + Config.recBytes; omega)

/-- Every 12-byte string is a frame, no other is (R51, R69, R121). -/
def decodeFrame (data : List Byte) : Except DecodeError Instr :=
  match frameOfData data with
  | some f => .ok (.frame f[0] (frameCiphertext f))
  | none => .error .wrongLength

/-- The decoder: total on every bit pattern, rejecting by name. -/
def decode : Encoded → Except DecodeError Instr
  | .command c => .ok (decodeCommand c)
  | .record r => decodeRecord r
  | .frame data => decodeFrame data

/-- A command with every operand line at zero. -/
def zeroCommand (op : BitVec 2) : Command where
  op := op
  key := zeros Config.keyBytes
  measurement := ⟨0, 0, 0, 0⟩
  order := Vector.replicate Config.nSlots .temperature
  deviceId := 0
  sequenceNumber := 0
  data := []

/-- Bits 15:8 of a field. -/
def highByte (v : U16) : Byte := v.extractLsb' 8 8
/-- Bits 7:0 of a field. -/
def lowByte (v : U16) : Byte := v.extractLsb' 0 8

/-- Format M, byte by byte as R53 lists it, with the pad byte given. -/
def encodeMeasRecord (deviceId : DeviceId) (m : Measurement) (pad : Byte) : Record :=
  #v[Config.tagMeas, deviceId,
    highByte (Machine.toU16 m.temperature), lowByte (Machine.toU16 m.temperature),
    highByte m.humidity, lowByte m.humidity,
    highByte m.pressure, lowByte m.pressure,
    highByte (Machine.toU16 m.illuminance), lowByte (Machine.toU16 m.illuminance),
    pad]

/-- Format C as R54 lists it, with the ignored bytes given: their numbers put the order byte at CTRL_ORDER_OFF. -/
def encodeCtrlRecord (deviceId : DeviceId) (order : Order) (hi : Vector Byte Config.ctrlBytesBefore)
    (lo : Vector Byte Config.ctrlBytesAfter) : Record :=
  (#v[Config.tagCtrl, deviceId] ++ hi ++ #v[Machine.packOrder order] ++ lo :
    Vector Byte (2 + Config.ctrlBytesBefore + 1 + Config.ctrlBytesAfter))

/-- The encoder: the `op` and operand lines of a command (R63, R64), the bytes of a record (R53, R54), the
bytes of a frame (R51). -/
def encode : Instr → Encoded
  | .init key => .command { zeroCommand 0b00 with key := key }
  | .buildm m dev seq =>
    .command { zeroCommand 0b01 with measurement := m, deviceId := dev, sequenceNumber := seq }
  | .buildc order dev seq =>
    .command { zeroCommand 0b10 with order := order, deviceId := dev, sequenceNumber := seq }
  | .parse data => .command { zeroCommand 0b11 with data := data }
  | .recMeas dev m pad => .record (encodeMeasRecord dev m pad)
  | .recCtrl dev order hi lo => .record (encodeCtrlRecord dev order hi lo)
  | .frame seq ct => .frame (seq :: ct.toList)

/-- The pseudo-operation `buildFrame` of R72: BUILDM for a Measurement, BUILDC for a ControlMessage. -/
def buildCommand (f : TypedFrame) : Command :=
  match f.payload with
  | .measurement m =>
    { zeroCommand 0b01 with measurement := m, deviceId := f.deviceId, sequenceNumber := f.sequenceNumber }
  | .control order =>
    { zeroCommand 0b10 with order := order, deviceId := f.deviceId, sequenceNumber := f.sequenceNumber }

/-- The `n` bytes of the table's `8n`-bit word `w`, the most significant byte first: byte 0 of a record or a
frame stands in the word's top eight bits (R73). -/
def tableBytes (n w : Nat) : Vector Byte n :=
  Vector.ofFn fun k => BitVec.ofNat 8 (w >>> (8 * (n - 1 - k.val)))

/-- The bit pattern of the table's word `w` of `nbits` bits: a command's `op` with its operand lines at zero, a
record's 88-bit word, a frame's 96-bit word (R63, R73). The width tells the three formats apart. DESIGN CHOICE, log entry 6. -/
def tableEncoded (nbits w : Nat) : Option Encoded :=
  if nbits ≤ 8 then some (.command (zeroCommand (BitVec.ofNat 2 w)))
  else if nbits = 8 * Config.recBytes then some (.record (tableBytes Config.recBytes w))
  else if nbits = 8 * Config.frameBytes then some (.frame (tableBytes Config.frameBytes w).toList)
  else none

/-- The instruction the decoder reads from the opcode table's word `w` of `nbits` bits. -/
def decodeTableWord (nbits w : Nat) : Option Instr :=
  match tableEncoded nbits w with
  | some e => (decode e).toOption
  | none => none

end Sys2Proof
end

