-- ==== Sys2Proof/Machine/State.lean ====
section
/-! DEFINITION. The state of the block, what it is given and what it answers (spec/10_state.md R13 to R16, R27,
R28; spec/60_exceptions.md R163; spec/70_reset_and_hazards.md R184). There is no general register, no program
counter, no flag and no addressable memory (R17 to R21, R30), so State holds none. -/

namespace Sys2Proof.Machine

/-- The reasons the machine can stop: NONE. The block always answers (R149, R166, R183): its fatal exception is a
response and a sticky bit after which it still answers (R154), so no constructor is needed. -/
inductive Fault where
  deriving DecidableEq, Repr

/-- The reasons an instruction has no meaning here. -/
inductive Refusal where
  /-- Raised by an arm of exec whose instruction has no meaning yet: safe. No arm raises it now. -/
  | notModelled (mnemonic : String)
  deriving DecidableEq, Repr

/-- The lifecycle register LIFE, one bit (R15). -/
inductive Life where
  | uninitialized
  | initialized
  deriving DecidableEq, Repr

/-- The payload of an OK response (R27). -/
inductive Payload where
  /-- INIT: none (R130, D26). -/
  | none
  /-- BUILDM, BUILDC: the 12-byte frame. -/
  | frame (f : Frame)
  /-- PARSE: deviceId, and the record whose type is the frameType (R120, R124). -/
  | parsed (deviceId : DeviceId) (record : TypedRecord)
  deriving DecidableEq, Repr

/-- A response: a sum, so that a failed one carries nothing (R27, R65, D16). -/
inductive Response where
  | ok (payload : Payload)
  | lengthError
  | unknownFrameType
  | fatal
  deriving DecidableEq, Repr

/-- What the host can do to the block (R163): issue a command, or reset it between commands (R170, log entry 9). -/
inductive HostEvent where
  | reset
  | command (c : Command)
  deriving DecidableEq, Repr

/-- KEY, LIFE and FAULT are the block's own state, all of it (R13). `pending` and `responses` are its two ports seen
over a run: the host's events not yet taken, in issue order (R42), and the responses given, oldest first
(R184); no rule reads a response back. `resets` numbers the reset events, so that each leaves KEY at a free value of
its own. DESIGN CHOICE, log entries 2, 7 and 8. -/
structure State where
  key : Key
  life : Life
  fault : Bool
  pending : List HostEvent
  responses : List Response
  resets : Nat
  deriving DecidableEq, Repr

/-- The block right after reset: Uninitialized, no fault, KEY unspecified (R28; DESIGN CHOICE, log entry 2: a free value); no
command issued, no response given. -/
def State.reset : State where
  key := Config.powerOnKey
  life := .uninitialized
  fault := false
  pending := []
  responses := []
  resets := 0

end Sys2Proof.Machine
end

