-- ==== Sys2Proof/Machine/FrameCodec.lean ====
section
/-! DEFINITION. The Frame Codec: NONCE, STAMP, BUILD_FRAME in its two forms, PARSE_FRAME (spec/42_frame_codec.md R115 to
R124), over any block cipher `E`. A build or a parse is a function of the key and its operands: it writes no
state (R119, R120). -/

namespace Sys2Proof.Machine

/-- NONCE (R115, R61). -/
def nonce (s : SequenceNumber) : Block := memWrite8 (zeros Config.blockBytes) Config.seqNonceIndex s

/-- STAMP (R116). -/
def stamp (r : Record) (tag : Byte) (deviceId : DeviceId) : Record := memWrite8 (memWrite8 r 0 tag) 1 deviceId

/-- The record BUILD_FRAME serialises, step 1, Measurement form (R117). -/
def measRecord (m : Measurement) (deviceId : DeviceId) : Record := stamp (encMeas m) Config.tagMeas deviceId

/-- The record BUILD_FRAME serialises, step 1, Control form (R118). -/
def ctrlRecord (order : Order) (deviceId : DeviceId) : Record := stamp (encCtrl order) Config.tagCtrl deviceId

/-- Steps 2 to 4 of BUILD_FRAME: nonce, transform, the cleartext sequence byte in front (R117, R118). -/
def sealRecord (E : Cipher) (key : Key) (r : Record) (sequenceNumber : SequenceNumber) : Frame :=
  (#v[sequenceNumber] ++ xform E key r (nonce sequenceNumber) : Vector Byte (1 + Config.recBytes))

/-- BUILD_FRAME, Measurement form (R117). -/
def buildFrameM (E : Cipher) (key : Key) (m : Measurement) (deviceId : DeviceId) (sequenceNumber : SequenceNumber) : Frame :=
  sealRecord E key (measRecord m deviceId) sequenceNumber

/-- BUILD_FRAME, Control form (R118). -/
def buildFrameC (E : Cipher) (key : Key) (order : Order) (deviceId : DeviceId) (sequenceNumber : SequenceNumber) : Frame :=
  sealRecord E key (ctrlRecord order deviceId) sequenceNumber

/-- BUILD_FRAME of a typed frame, in the form its record's type selects (R72, R117, R118). -/
def buildTypedFrame (E : Cipher) (key : Key) (f : TypedFrame) : Frame :=
  match f.payload with
  | .measurement m => buildFrameM E key m f.deviceId f.sequenceNumber
  | .control order => buildFrameC E key order f.deviceId f.sequenceNumber

/-- Steps 2 and 3 of PARSE_FRAME: the record under the frame's own nonce (R122). -/
def openRecord (E : Cipher) (key : Key) (sequenceNumber : SequenceNumber) (ct : Ciphertext) : Record :=
  xform E key ct (nonce sequenceNumber)

/-- Steps 4 to 6 of PARSE_FRAME: the tag dispatches to a decode, deviceId beside it, or is an unknown type
(R123, R124). -/
def recordResponse (r : Record) : Response :=
  let t := memRead8 r 0
  let d := memRead8 r 1
  if t = Config.tagMeas then .ok (.parsed d (.measurement (decMeas r)))
  else if t = Config.tagCtrl then .ok (.parsed d (.control (decCtrl r)))
  else .unknownFrameType

/-- PARSE_FRAME from step 2 on, the length being established (R120). -/
def parseFrame (E : Cipher) (key : Key) (f : Frame) : Response :=
  recordResponse (openRecord E key f[0] (frameCiphertext f))

/-- PARSE_FRAME: the length check first (R120, R121). -/
def parseData (E : Cipher) (key : Key) (data : List Byte) : Response :=
  match frameOfData data with
  | some f => parseFrame E key f
  | none => .lengthError

end Sys2Proof.Machine
end

