-- ==== Sys2Proof/Machine/Ops.lean ====
section
/-! DEFINITION. The named operations over State: answering, the lifecycle precondition, the fatal exception, the reset
event, and how an encoded instruction is placed in front of the block. The block has no return from an
exception: only reset leaves the faulted state (spec/60_exceptions.md R156). -/

namespace Sys2Proof.Machine

/-- Deliver one response (R27, R42). -/
def State.respond (s : State) (r : Response) : State := { s with responses := s.responses ++ [r] }

/-- INIT's two writes, taken together (R130, R44). -/
def State.loadKey (s : State) (key : Key) : State := { s with key := key, life := .initialized }

/-- PRECHECK: does a command violate the initialization contract in this state (R135, R148)? -/
def State.violates (s : State) (isInit : Bool) : Bool :=
  s.fault || (if isInit then decide (s.life = .initialized) else decide (s.life = .uninitialized))

/-- TAKING THE FATAL EXCEPTION: FAULT is set, the answer is FATAL, and nothing else changes (R154, D10, D12). -/
def State.fatal (s : State) : State := { s with fault := true }.respond .fatal

/-- Every command begins with PRECHECK, before it looks at any operand (R135, R152). -/
def State.guarded (s : State) (isInit : Bool) (done : State) : State :=
  if s.violates isInit then s.fatal else done

/-- The reset event: LIFE and FAULT cleared, KEY unspecified (R170). -/
def State.resetEvent (s : State) : State :=
  { s with
    key := Config.resetKey s.resets s.key
    life := .uninitialized
    fault := false
    resets := s.resets + 1 }

/-- The host puts one event in front of those it has still to issue. -/
def State.issue (s : State) (e : HostEvent) : State := { s with pending := e :: s.pending }

/-- The PARSE command for received bytes. -/
def parseCommand (data : List Byte) : Command := { zeroCommand 0b11 with data := data }

/-- The block waiting with a PARSE of `data`, in the lifecycle state that lets PARSE reach the frame. -/
def State.presentData (s : State) (data : List Byte) : State :=
  { s with life := .initialized, fault := false }.issue (.command (parseCommand data))

/-- Place an encoded instruction so that the next step runs it. A command stands on the command port. The block takes a
frame only as PARSE's data, and a record only as the plaintext of such a frame (R137), so a frame is
presented to PARSE, and a record is sealed under sequence number 0 first. DESIGN CHOICE, log entry 6. -/
def State.place (s : State) : Encoded → State
  | .command c => s.issue (.command c)
  | .frame data => s.presentData data
  | .record r => s.presentData (sealRecord Config.E s.key r 0).toList

end Sys2Proof.Machine
end

