-- ==== Sys2Proof/Machine/Facade.lean ====
section
/-! DEFINITION. The meanings of the four commands (spec/43_protocol_facade.md R130 to R133). -/

namespace Sys2Proof.Machine

/-- INIT (R130). -/
def execInit (key : Key) (s : State) : Host.Outcome State Fault Refusal :=
  .next (s.guarded true ((s.loadKey key).respond (.ok .none)))

/-- BUILDM (R131). -/
def execBuildm (m : Measurement) (deviceId : DeviceId) (sequenceNumber : SequenceNumber) (s : State) :
    Host.Outcome State Fault Refusal :=
  .next (s.guarded false
    (s.respond (.ok (.frame (buildFrameM Config.E s.key m deviceId sequenceNumber)))))

/-- BUILDC (R132). -/
def execBuildc (order : Order) (deviceId : DeviceId) (sequenceNumber : SequenceNumber) (s : State) :
    Host.Outcome State Fault Refusal :=
  .next (s.guarded false
    (s.respond (.ok (.frame (buildFrameC Config.E s.key order deviceId sequenceNumber)))))

/-- PARSE (R133). -/
def execParse (data : List Byte) (s : State) : Host.Outcome State Fault Refusal :=
  .next (s.guarded false (s.respond (parseData Config.E s.key data)))

end Sys2Proof.Machine
end

