-- ==== Sys2Proof/Machine/Formats.lean ====
section
/-! DEFINITION. The meanings of the table's three format rows: what PARSE does once it holds a frame, and once the frame
is decrypted to a record of one type or the other (spec/42_frame_codec.md R120, R122 to R124). PARSE has done the
lifecycle check before any of them, so none repeats it (DEDUCED, log entry 10). -/

namespace Sys2Proof.Machine

/-- FRAME: PARSE_FRAME from step 2 on (R120, R122). -/
def execFrame (sequenceNumber : SequenceNumber) (ciphertext : Ciphertext) (s : State) : Host.Outcome State Fault Refusal :=
  .next (s.respond (recordResponse (openRecord Config.E s.key sequenceNumber ciphertext)))

/-- REC.MEAS: the Measurement with deviceId and type; the pad byte is ignored (R96, R124, R67). -/
def execRecMeas (deviceId : DeviceId) (m : Measurement) (s : State) : Host.Outcome State Fault Refusal :=
  .next (s.respond (.ok (.parsed deviceId (.measurement m))))

/-- REC.CTRL: the ControlMessage with deviceId and type; the other bytes are ignored (R100, R124, R67). -/
def execRecCtrl (deviceId : DeviceId) (order : Order) (s : State) : Host.Outcome State Fault Refusal :=
  .next (s.respond (.ok (.parsed deviceId (.control order))))

end Sys2Proof.Machine
end

