-- ==== Sys2Proof/Machine/Dispatch.lean ====
section
/-! DEFINITION. One arm per instruction. -/

namespace Sys2Proof.Machine

def exec (i : Instr) (s : State) : Host.Outcome State Fault Refusal :=
  match i with
  | .init key => Sys2Proof.Machine.execInit key s
  | .buildm m dev seq => Sys2Proof.Machine.execBuildm m dev seq s
  | .buildc order dev seq => Sys2Proof.Machine.execBuildc order dev seq s
  | .parse data => Sys2Proof.Machine.execParse data s
  | .recMeas dev m _ => Sys2Proof.Machine.execRecMeas dev m s
  | .recCtrl dev order _ _ => Sys2Proof.Machine.execRecCtrl dev order s
  | .frame seq ct => Sys2Proof.Machine.execFrame seq ct s

end Sys2Proof.Machine
end

