-- ==== Sys2Proof/Machine/Step.lean ====
section
/-! DEFINITION. One step: the block takes the host's next event, to completion (spec/20_memory.md R42;
spec/70_reset_and_hazards.md R170, R183). -/

namespace Sys2Proof.Machine

/-- With no event pending the block is idle and nothing changes (R169, R184; DESIGN CHOICE, log entry 7); a reset event resets it; a command is
decoded by its `op` and executed whole. -/
def step (s : State) : Host.Outcome State Fault Refusal :=
  match s.pending with
  | [] => .next s
  | .reset :: rest => .next { s with pending := rest }.resetEvent
  | .command c :: rest => exec (decodeCommand c) { s with pending := rest }

/-- The opcode table's word `w`, placed so that the next step runs it (DESIGN CHOICE, log entry 6); a width the table does not have
places nothing. -/
def State.withFetchWord (s : State) (nbits w : Nat) : State :=
  match tableEncoded nbits w with
  | some e => s.place e
  | none => s

end Sys2Proof.Machine
end

