-- ==== Sys2Proof/Machine/Flags.lean ====
section
/-! DEFINITION. What stands in the place of flags. The block has no flag and no condition code (spec/10_state.md R19):
the outcome of a command is the status of its response, whose codes are given here (spec/30_encoding.md R65), beside
the one-bit codes of the control registers (spec/10_state.md R15, R16). -/

namespace Sys2Proof.Machine

/-- The 2-bit status code of a response (R65, D3). -/
def Response.status : Response → BitVec 2
  | .ok _ => 0b00
  | .lengthError => 0b01
  | .unknownFrameType => 0b10
  | .fatal => 0b11

/-- The frameType field of a PARSE payload, reported as the tag value (R27, R65, D22). -/
def Payload.frameType : Payload → Option Byte
  | .parsed _ record => some (frameTag (frameTypeOf record))
  | .frame _ => Option.none
  | .none => Option.none

/-- The LIFE bit (R15, D13). -/
def Life.bit : Life → BitVec 1
  | .uninitialized => 0
  | .initialized => 1

/-- The FAULT bit (R16). -/
def faultBit (fault : Bool) : BitVec 1 := if fault then 1 else 0

end Sys2Proof.Machine
end

