-- ==== Sys2Proof/Machine/Sender.lean ====
section
/-! DEFINITION. The reference sender, on the HOST's side of the command port (spec/60_exceptions.md R160 to R162, D24): the
block itself holds no counter (spec/10_state.md R23). DESIGN CHOICE, log entry 11: where the counter starts, and that it
advances for each frame asked for, whatever the block answers. -/

namespace Sys2Proof.Machine

/-- The sender's 8-bit sequence counter (R160). -/
structure Sender where
  counter : SequenceNumber
  deriving DecidableEq, Repr

/-- The sender before its first frame: its counter is SEQ0 (R162). -/
def senderStart : Sender := ⟨Config.seq0⟩

/-- The typed frame the sender asks for: its counter's value is the sequence number (R160). -/
def senderFrame (h : Sender) (deviceId : DeviceId) (payload : TypedRecord) : TypedFrame :=
  ⟨h.counter, deviceId, payload⟩

/-- `next = (current + 1) mod 256`, one step per frame (R160). -/
def senderAdvance (h : Sender) : Sender := ⟨h.counter + 1⟩

/-- The typed frames a sender asks for when it sends these records one after the other. The counter advances after each
frame asked for, also when its build is answered FATAL: R160 says 'one step per frame built' and 'after each build', and
leaves a build answered FATAL open. DESIGN CHOICE, log entry 11. -/
def senderFrames : Sender → List (DeviceId × TypedRecord) → List TypedFrame
  | _, [] => []
  | h, (dev, payload) :: rest => senderFrame h dev payload :: senderFrames (senderAdvance h) rest

/-- The sender after it has asked for that many frames, whatever the answers. DESIGN CHOICE, log entry 11. -/
def senderAfter : Sender → Nat → Sender
  | h, 0 => h
  | h, n + 1 => senderAfter (senderAdvance h) n

/-- The commands those frames are asked for with, in order (R72). -/
def senderEvents (h : Sender) (records : List (DeviceId × TypedRecord)) : List HostEvent :=
  (senderFrames h records).map fun f => .command (buildCommand f)

end Sys2Proof.Machine
end

