-- ==== Sys2Proof/WellFormed.lean ====
section
/-! DEFINITION. The well-formedness of an instruction. Operand widths are in the types, so that the one check
left is the bound on what the PARSE port can present (spec/30_encoding.md R64, spec/10_state.md R27). -/

namespace Sys2Proof

/-- What the command port can present: `len(data) <= MAX_IN_LEN`; nothing else can be ill-formed (R64, R68). -/
def Instr.wellFormed : Instr → Bool
  | .init _ => true
  | .buildm _ _ _ => true
  | .buildc _ _ _ => true
  | .parse data => decide (data.length ≤ Config.maxInLen)
  | .recMeas _ _ _ => true
  | .recCtrl _ _ _ _ => true
  | .frame _ _ => true

end Sys2Proof
end

