-- ==== Sys2Proof/Safety.lean ====
section
/-! DEFINITION. What counts as a safe run, in the terms the claims use: the lifecycle states (spec/43_protocol_facade.md
R134), the host's contract and nonce duties (spec/60_exceptions.md R161, R164), the end of a run
(spec/70_reset_and_hazards.md R184). -/

namespace Sys2Proof.Machine

/-- The Uninitialized row of the lifecycle table (R134). -/
def State.Uninitialized (s : State) : Prop := s.life = .uninitialized ∧ s.fault = false

/-- The Initialized row of the lifecycle table (R134). -/
def State.Initialized (s : State) : Prop := s.life = .initialized ∧ s.fault = false

/-- The Faulted row of the lifecycle table (R134). -/
def State.Faulted (s : State) : Prop := s.fault = true

/-- The four instructions a host can issue (R137, R163). -/
def IsCommand : Instr → Bool
  | .init _ => true
  | .buildm _ _ _ => true
  | .buildc _ _ _ => true
  | .parse _ => true
  | .recMeas _ _ _ => false
  | .recCtrl _ _ _ _ => false
  | .frame _ _ => false

/-- INIT, the one command the lifecycle treats apart (R135). -/
def IsInit : Instr → Bool
  | .init _ => true
  | .buildm _ _ _ => false
  | .buildc _ _ _ => false
  | .parse _ => false
  | .recMeas _ _ _ => false
  | .recCtrl _ _ _ _ => false
  | .frame _ _ => false

/-- The contract duty over the events still to come, from a lifecycle state: INIT exactly once after a reset, before any
other command (R164, R173). -/
def ContractOk : Life → List HostEvent → Bool
  | _, [] => true
  | _, .reset :: rest => ContractOk .uninitialized rest
  | .uninitialized, .command c :: rest => decide (c.op = 0) && ContractOk .initialized rest
  | .initialized, .command c :: rest => decide (c.op ≠ 0) && ContractOk .initialized rest

/-- A run is faulted if any response was FATAL (R184). -/
def State.FaultedRun (s : State) : Prop := .fatal ∈ s.responses

/-- The host keeps its contract and nothing fatal has happened. -/
def State.ContractInv (s : State) : Prop :=
  s.fault = false ∧ ContractOk s.life s.pending = true ∧ .fatal ∉ s.responses

/-- A latched FAULT was answered FATAL: the bit is set by a violation and by nothing else (R16). -/
def State.FaultAnswered (s : State) : Prop := s.fault = true → s.FaultedRun

/-- Every PARSE still to come carries at most MAX_IN_LEN bytes (R27, R64). -/
def State.InputsFit (s : State) : Prop :=
  ∀ c, .command c ∈ s.pending → (decodeCommand c).wellFormed = true

/-- A run has ended when the host has no more events (R184). -/
def State.Ended (s : State) : Prop := s.pending = []

/-- A run of `n` steps: what `Host.Core.run` computes for this machine. -/
def runFor : Nat → State → Host.Outcome State Fault Refusal
  | 0, s => .next s
  | n + 1, s =>
    match step s with
    | .next t => runFor n t
    | .fault r => .fault r
    | .refused r => .refused r

/-- How many of these events are commands. -/
def commandCount : List HostEvent → Nat
  | [] => 0
  | .reset :: rest => commandCount rest
  | .command _ :: rest => commandCount rest + 1

/-- The nonce duty over the frames built under one key: one sequence number, one record (R161, R164). -/
def NoNonceReuse (frames : List TypedFrame) : Prop :=
  ∀ f ∈ frames, ∀ g ∈ frames, f.sequenceNumber = g.sequenceNumber → f = g

/-- The plaintext of a built frame, byte by byte: format M or C with every unused byte zero (R53, R54; the order byte's
place is D8's choice, log entry 4, its layout D29's, log entry 14). -/
def plaintextRecord (deviceId : DeviceId) : TypedRecord → Record
  | .measurement m => encodeMeasRecord deviceId m 0
  | .control order => encodeCtrlRecord deviceId order (zeros _) (zeros _)

/-- Two states that may differ in KEY, but not where KEY can matter: they agree in everything else, and in KEY too once
LIFE is Initialized. -/
def State.AgreeButUnsetKey (s t : State) : Prop :=
  s.life = t.life ∧ s.fault = t.fault ∧ s.pending = t.pending ∧ s.responses = t.responses ∧
    s.resets = t.resets ∧ (s.life = .initialized → s.key = t.key)

/-- A block as a big-endian integer, byte 0 most significant (R33). -/
def blockValue (blk : Block) : Nat := blk.toList.foldl (fun acc b => 256 * acc + b.toNat) 0

end Sys2Proof.Machine
end

