-- ==== Sys2Proof/Certificates/Slice0/Obligations.lean ====
section
/-! DEFINITION. The statements for the provers, from the spec's numbered rules. Where one rests on a choice the spec marks
as its own (a decision D<n>) or on an entry of this model's log, its docstring says so. -/

open Sys2Proof Sys2Proof.Machine

/-! ### Decoding and encoding -/

/-- Words written out from R53, R54, R63 (codes: D2) decode to what they stand for; illegal tags and lengths are
rejected by name. That an 8-bit table word is an op with its operand lines at zero and `data` empty is this model's choice
(log entry 6); the Control word's order byte stands where D8 puts it (log entry 4) and is laid out as D29 says (log
entry 14). -/
def Obligations.SpecWordsDecode : Prop :=
  decodeTableWord 8 0b00 = some (.init (zeros 16)) ∧
  decodeTableWord 8 0b01 = some (.buildm ⟨0, 0, 0, 0⟩ 0 0) ∧
  decodeTableWord 8 0b10 = some (.buildc #v[.temperature, .temperature, .temperature, .temperature] 0 0) ∧
  decodeTableWord 8 0b11 = some (.parse []) ∧
  decode (.record #v[0x01, 0x11, 0x00, 0x01, 0x00, 0x02, 0x00, 0x03, 0x00, 0x04, 0xAA]) =
    .ok (.recMeas 0x11 ⟨1, 2, 3, 4⟩ 0xAA) ∧
  decode (.record #v[0x02, 0x33, 0xDE, 0xAD, 0x1B, 0xBE, 0xEF, 0x01, 0x02, 0x03, 0x04]) =
    .ok (.recCtrl 0x33 #v[.pressure, .humidity, .illuminance, .temperature] #v[0xDE, 0xAD]
      #v[0xBE, 0xEF, 0x01, 0x02, 0x03, 0x04]) ∧
  decode (.record #v[0x00, 0, 0, 0, 0, 0, 0, 0, 0, 0, 0]) = .error .unknownTag ∧
  decode (.record #v[0x03, 0, 0, 0, 0, 0, 0, 0, 0, 0, 0]) = .error .unknownTag ∧
  decode (.frame [0x2A, 1, 2, 3, 4, 5, 6, 7, 8, 9, 10, 11]) = .ok (.frame 0x2A #v[1, 2, 3, 4, 5, 6, 7, 8, 9, 10, 11]) ∧
  decode (.frame [0x2A, 1, 2, 3, 4, 5, 6, 7, 8, 9, 10]) = .error .wrongLength

/-- Decoding an encoded instruction gives it back, every operand at every value (R51, R53, R54, R63, R64). The `op` codes
(D2), the order byte's place (D8) and layout (D29) are the spec's choices; the typed port is log entry 5. -/
def Obligations.DecodeOfEncodeIsIdentity : Prop :=
  ∀ i : Instr, decode (encode i) = .ok i

/-- A record or a frame that decodes is the encoding of what it decodes to, so each bit pattern has one meaning; a command's
encoding keeps its `op`. -/
def Obligations.EncodeOfDecodedKeepsEveryBit : Prop :=
  (∀ r i, decode (.record r) = .ok i → encode i = .record r) ∧
  (∀ data i, decode (.frame data) = .ok i → encode i = .frame data) ∧
  (∀ c i, decode (.command c) = .ok i → ∃ c', encode i = .command c' ∧ c'.op = c.op)

/-- Tag 1 is a Measurement record and tag 2 a Control record, each field at its offset, big-endian (R53, R54, R56, R32); the
other 254 tags are illegal, all in the same way (R66). The order byte's offset 4 is D8's choice, log entry 4. -/
def Obligations.TagSelectsRecordFormat : Prop :=
  ∀ r : Record,
    (r[0] = 1 → decode (.record r) = .ok (.recMeas r[1]
      ⟨Int16.ofBitVec (r[2] ++ r[3]), r[4] ++ r[5], r[6] ++ r[7], Int16.ofBitVec (r[8] ++ r[9])⟩ r[10])) ∧
    (r[0] = 2 → ∃ order, decode (.record r) = .ok (.recCtrl r[1] order #v[r[2], r[3]]
      #v[r[5], r[6], r[7], r[8], r[9], r[10]]) ∧ packOrder order = r[4]) ∧
    (r[0] ≠ 1 → r[0] ≠ 2 → decode (.record r) = .error .unknownTag)

/-- Every 12-byte string is a well-formed frame, and nothing else is (R51, R69). -/
def Obligations.FrameIsAnyTwelveBytes : Prop :=
  (∀ (f : Frame), decode (.frame f.toList) =
    .ok (.frame f[0] #v[f[1], f[2], f[3], f[4], f[5], f[6], f[7], f[8], f[9], f[10], f[11]])) ∧
  (∀ data : List Byte, data.length ≠ 12 → decode (.frame data) = .error .wrongLength)

/-- Each of the four `op` values selects its command with its own operands; none is illegal (R63, R64). The codes are D2's
choice; that the lines of other commands are ignored is log entry 5. -/
def Obligations.OpSelectsCommand : Prop :=
  ∀ c : Command,
    (c.op = 0b00 → decode (.command c) = .ok (.init c.key)) ∧
    (c.op = 0b01 → decode (.command c) = .ok (.buildm c.measurement c.deviceId c.sequenceNumber)) ∧
    (c.op = 0b10 → decode (.command c) = .ok (.buildc c.order c.deviceId c.sequenceNumber)) ∧
    (c.op = 0b11 → decode (.command c) = .ok (.parse c.data))

/-- The pseudo-operation buildFrame is BUILDM for a Measurement and BUILDC for a ControlMessage (R72). -/
def Obligations.BuildFrameExpandsByRecordType : Prop :=
  ∀ f : TypedFrame,
    (∀ m, f.payload = .measurement m →
      decode (.command (buildCommand f)) = .ok (.buildm m f.deviceId f.sequenceNumber)) ∧
    (∀ order, f.payload = .control order →
      decode (.command (buildCommand f)) = .ok (.buildc order f.deviceId f.sequenceNumber))

/-! ### The step -/

/-- A step runs the command it decodes: the command is taken off the port and executed whole (R42). -/
def Obligations.StepRunsDecodedCommand : Prop :=
  ∀ s c rest i, s.pending = .command c :: rest → decode (.command c) = .ok i → i.wellFormed = true →
    step s = exec i { s with pending := rest }

/-- With no event pending a step changes nothing (log entry 7: the model's choice, R169 says the block is idle); a reset event
leaves the block Uninitialized and without fault, and touches neither what is pending behind it nor the
responses given (R170, D13). Nothing is said of KEY. -/
def Obligations.StepIdlesOrResets : Prop :=
  (∀ s : State, s.pending = [] → step s = .next s) ∧
  (∀ (s : State) rest, s.pending = .reset :: rest → ∃ t, step s = .next t ∧ t.life = .uninitialized ∧
    t.fault = false ∧ t.pending = rest ∧ t.responses = s.responses)

/-- The table's word, placed, is what the next step runs. A command runs in the state as it stands; a frame or a record runs
inside the PARSE that carries it, which needs an Initialized block (R137; log entry 6: the model's choice; the meaning of
those rows is log entry 10, DEDUCED). -/
def Obligations.FetchedWordIsRun : Prop :=
  ∀ s nbits w i, decodeTableWord nbits w = some i →
    (IsCommand i = true → step (s.withFetchWord nbits w) = exec i s) ∧
    (IsCommand i = false → step (s.withFetchWord nbits w) =
      exec i { s with life := .initialized, fault := false })

/-! ### Buffers, fields, records -/

/-- MemRead reads one byte, or two as a big-endian number (R34). -/
def Obligations.MemReadIsBigEndian : Prop :=
  ∀ (L : Nat) (buf : Vector Byte L) (off : Nat),
    (∀ h : off + 1 ≤ L, memRead8 buf off h = buf[off]) ∧
    (∀ h : off + 2 ≤ L, (memRead16 buf off h).toNat = buf[off].toNat * 256 + buf[off + 1].toNat)

/-- MemWrite stores exactly the named bytes, high byte first, and MemRead there gives the value back (R35). -/
def Obligations.MemWriteStoresExactlyItsBytes : Prop :=
  ∀ (L : Nat) (buf : Vector Byte L) (off : Nat),
    (∀ (v : Byte) (h : off + 1 ≤ L),
      (memWrite8 buf off v h)[off] = v ∧ memRead8 (memWrite8 buf off v h) off h = v ∧
      ∀ (k : Nat) (hk : k < L), k ≠ off → (memWrite8 buf off v h)[k] = buf[k]) ∧
    (∀ (v : U16) (h : off + 2 ≤ L),
      (memWrite16 buf off v h)[off].toNat = v.toNat / 256 ∧
      (memWrite16 buf off v h)[off + 1].toNat = v.toNat % 256 ∧
      memRead16 (memWrite16 buf off v h) off h = v ∧
      ∀ (k : Nat) (hk : k < L), k ≠ off → k ≠ off + 1 → (memWrite16 buf off v h)[k] = buf[k])

/-- to_u16 and to_s16 are the two's-complement image and its inverse (R11). -/
def Obligations.SignedImagesAreInverse : Prop :=
  (∀ x : S16, ((toU16 x).toNat : Int) = x.toInt % 65536 ∧ toS16 (toU16 x) = x) ∧
  (∀ w : U16, toU16 (toS16 w) = w ∧
    (toS16 w).toInt = if w.toNat < 32768 then (w.toNat : Int) else (w.toNat : Int) - 65536)

/-- The packed order byte's value, its slots, and that packing and unpacking are inverse bijections (R97, R98). The place of
slots 1 to 3 is D29's choice; that the bijection holds is the spec's inference R102. -/
def Obligations.OrderPackingIsBijection : Prop :=
  (∀ order : Order, (packOrder order).toNat = (kindCode order[0]).toNat + 4 * (kindCode order[1]).toNat +
      16 * (kindCode order[2]).toNat + 64 * (kindCode order[3]).toNat ∧
    unpackOrder (packOrder order) = order) ∧
  (∀ b : Byte, packOrder (unpackOrder b) = b ∧
    ∀ (i : Nat) (h : i < 4), (kindCode (unpackOrder b)[i]).toNat = b.toNat / 4 ^ i % 4)

/-- The Measurement record: decode after encode is the identity, under any deviceId; encode after decode keeps bytes 2 to 9
and fixes the rest. The spec infers this (R101); the placeholder 0 is D9's choice. -/
def Obligations.MeasurementRecordRoundTrip : Prop :=
  (∀ (m : Measurement) (deviceId : Byte),
    decMeas (encMeas m) = m ∧ decMeas (stamp (encMeas m) 1 deviceId) = m) ∧
  (∀ r : Record, encMeas (decMeas r) =
    (#v[1, 0, r[2], r[3], r[4], r[5], r[6], r[7], r[8], r[9], 0] : Record))

/-- The Control record: its bytes, decode after encode, and that the ten bytes that are not the order byte are not read. The
offset 4 is D8's choice (log entry 4), the placeholder 0 is D9's. -/
def Obligations.ControlRecordRoundTrip : Prop :=
  (∀ order : Order, encCtrl order = #v[2, 0, 0, 0, packOrder order, 0, 0, 0, 0, 0, 0] ∧
    decCtrl (encCtrl order) = order) ∧
  (∀ r r' : Record, r[4] = r'[4] → decCtrl r = decCtrl r')

/-! ### The cipher engine -/

/-- XFORM is its own inverse, whatever `E`, the key, the nonce block and the buffer (R83). -/
def Obligations.TransformIsItsOwnInverse : Prop :=
  ∀ (E : Cipher) (key : Key) (L : Nat) (buf : Vector Byte L) (nb : Block),
    xform E key (xform E key buf nb) nb = buf

/-- Byte i meets byte i mod 16 of the encryption of the counter block advanced i div 16 times; on an 11-byte record that is
one run of `E`, on the nonce block as supplied. The pairing is D6's choice and the counter's advance D5's (log
entry 13), the reduced form the spec's inference R88. -/
def Obligations.KeystreamMeetsBufferInOrder : Prop :=
  (∀ (E : Cipher) (key : Key) (L : Nat) (buf : Vector Byte L) (nb : Block) (i : Nat) (h : i < L),
    (xform E key buf nb)[i] =
      buf[i] ^^^ (E key (ctrIncIter (i / 16) nb))[i % 16]'(Nat.mod_lt _ (by decide))) ∧
  (∀ (E : Cipher) (key : Key) (r : Record) (nb : Block) (i : Nat) (h : i < 11),
    (xform E key r nb)[i] = r[i] ^^^ (E key nb)[i]'(Nat.lt_trans h (by decide)))

/-- CTR_INC adds 1 to the block read as a 128-bit big-endian number, and wraps. This is D5's choice (log entry 13). -/
def Obligations.CounterIncrementsBigEndian : Prop :=
  ∀ blk : Block, blockValue (ctrInc blk) = (blockValue blk + 1) % 2 ^ 128

/-- The nonce block: fifteen zero bytes and the sequence number, so different sequence numbers have different
nonce blocks (R115, R61). -/
def Obligations.NonceIsZeroButLastByte : Prop :=
  (∀ s : Byte, nonce s = #v[0, 0, 0, 0, 0, 0, 0, 0, 0, 0, 0, 0, 0, 0, 0, s]) ∧
  (∀ s s' : Byte, nonce s = nonce s' → s = s')

/-- STAMP writes the tag and deviceId and leaves bytes 2 to 10 (R116). -/
def Obligations.StampWritesFirstTwoBytes : Prop :=
  ∀ (r : Record) (tag deviceId : Byte), (tag = 1 ∨ tag = 2) →
    (stamp r tag deviceId)[0] = tag ∧ (stamp r tag deviceId)[1] = deviceId ∧
    ∀ (i : Nat) (h : i < 11), 2 ≤ i → (stamp r tag deviceId)[i] = r[i]

/-- Reusing a nonce leaks the XOR of the two plaintexts: of any two buffers, and of the plaintexts of a Measurement frame and
a Control frame under one sequence number, whoever sends them. The spec's inference (R87, R175), over D6's pairing (log
entry 13); the Control record's order byte stands where D8 puts it (log entry 4), laid out as D29 says (log entry 14). -/
def Obligations.NonceReuseLeaksPlaintextXor : Prop :=
  (∀ (E : Cipher) (key : Key) (L : Nat) (p q : Vector Byte L) (nb : Block) (i : Nat) (h : i < L),
    (xform E key p nb)[i] ^^^ (xform E key q nb)[i] = p[i] ^^^ q[i]) ∧
  (∀ (s : State) (m : Measurement) (order : Order) (dev dev' seq : Byte), s.Initialized →
    ∃ f g : Frame,
      exec (.buildm m dev seq) s = .next { s with responses := s.responses ++ [.ok (.frame f)] } ∧
      exec (.buildc order dev' seq) s = .next { s with responses := s.responses ++ [.ok (.frame g)] } ∧
      ∀ (i : Nat) (h : i < 11), f[i + 1]'(Nat.succ_lt_succ h) ^^^ g[i + 1]'(Nat.succ_lt_succ h) =
        (plaintextRecord dev (.measurement m))[i] ^^^ (plaintextRecord dev' (.control order))[i])

/-! ### The instructions: what each does where it completes -/

/-- INIT on an Uninitialized block stores the key and nothing but KEY and LIFE changes (R130). The response without payload
is D26's choice. -/
def Obligations.InitStoresKey : Prop :=
  ∀ (s : State) (key : Key), s.Uninitialized →
    exec (.init key) s =
      .next { s with key := key, life := .initialized, responses := s.responses ++ [.ok .none] }

/-- BUILDM on an Initialized block answers the frame of format F over format M, byte by byte, and writes no state (R131, R117,
R51, R53). Which keystream byte meets which is D6's choice. -/
def Obligations.BuildmAnswersFrame : Prop :=
  ∀ (s : State) (m : Measurement) (dev seq : Byte), s.Initialized →
    let ks := Config.E s.key (nonce seq)
    exec (.buildm m dev seq) s = .next { s with responses := s.responses ++ [.ok (.frame
      #v[seq, 1#8 ^^^ ks[0], dev ^^^ ks[1],
        m.temperature.toBitVec.extractLsb' 8 8 ^^^ ks[2], m.temperature.toBitVec.extractLsb' 0 8 ^^^ ks[3],
        m.humidity.extractLsb' 8 8 ^^^ ks[4], m.humidity.extractLsb' 0 8 ^^^ ks[5],
        m.pressure.extractLsb' 8 8 ^^^ ks[6], m.pressure.extractLsb' 0 8 ^^^ ks[7],
        m.illuminance.toBitVec.extractLsb' 8 8 ^^^ ks[8], m.illuminance.toBitVec.extractLsb' 0 8 ^^^ ks[9],
        ks[10]])] }

/-- BUILDC on an Initialized block answers the frame of format F over format C, byte by byte, and writes no state (R132, R118,
R51). The order byte's place is D8's choice (log entry 4), its layout D29's, the keystream pairing D6's. -/
def Obligations.BuildcAnswersFrame : Prop :=
  ∀ (s : State) (order : Order) (dev seq : Byte), s.Initialized →
    let ks := Config.E s.key (nonce seq)
    exec (.buildc order dev seq) s = .next { s with responses := s.responses ++ [.ok (.frame
      #v[seq, 2#8 ^^^ ks[0], dev ^^^ ks[1], ks[2], ks[3],
        (kindCode order[3] ++ kindCode order[2] ++ kindCode order[1] ++ kindCode order[0]) ^^^ ks[4],
        ks[5], ks[6], ks[7], ks[8], ks[9], ks[10]])] }

/-- A frame whose tag decrypts to 1 is answered with the deviceId and the four fields, whatever the pad: by FRAME, and by
PARSE on an Initialized block (R120, R122, R124, R96). The keystream pairing is D6's choice (log entry 13), the ignored
pad D23's (log entry 16). That FRAME answers in every state, with no lifecycle check of its own, is DEDUCED, log
entry 10. -/
def Obligations.ParseAnswersMeasurement : Prop :=
  ∀ (s : State) (seq : Byte) (ct : Ciphertext),
    let ks := Config.E s.key (nonce seq)
    ct[0] ^^^ ks[0] = 1 →
    let t := { s with responses := s.responses ++ [.ok (.parsed (ct[1] ^^^ ks[1]) (.measurement
      ⟨Int16.ofBitVec ((ct[2] ^^^ ks[2]) ++ (ct[3] ^^^ ks[3])), (ct[4] ^^^ ks[4]) ++ (ct[5] ^^^ ks[5]),
        (ct[6] ^^^ ks[6]) ++ (ct[7] ^^^ ks[7]), Int16.ofBitVec ((ct[8] ^^^ ks[8]) ++ (ct[9] ^^^ ks[9]))⟩))] }
    exec (.frame seq ct) s = .next t ∧ (s.Initialized → exec (.parse (seq :: ct.toList)) s = .next t)

/-- A frame whose tag decrypts to 2 is answered with the deviceId and the order, every other byte ignored: by FRAME, and by
PARSE on an Initialized block (R120, R122, R124, R100). D6 (log entry 13), D8 (log entry 4), D23 (log entry 16) and D29
(log entry 14) are the spec's choices. That FRAME answers in every state, with no lifecycle check of its own, is DEDUCED, log
entry 10. -/
def Obligations.ParseAnswersControl : Prop :=
  ∀ (s : State) (seq : Byte) (ct : Ciphertext),
    let ks := Config.E s.key (nonce seq)
    ct[0] ^^^ ks[0] = 2 →
    ∃ order : Order, packOrder order = ct[4] ^^^ ks[4] ∧
      let t := { s with responses := s.responses ++ [.ok (.parsed (ct[1] ^^^ ks[1]) (.control order))] }
      exec (.frame seq ct) s = .next t ∧ (s.Initialized → exec (.parse (seq :: ct.toList)) s = .next t)

/-- A frame whose tag decrypts to neither 1 nor 2 is answered UNKNOWN_FRAME_TYPE, and no state changes: by FRAME, and by PARSE
on an Initialized block (R123, R147, R153). The pairing that decrypts the tag is D6's choice (log entry 13); that nothing
else is reported is D16's (log entry 18). That FRAME answers in every state, with no lifecycle check of its own, is
DEDUCED, log entry 10. -/
def Obligations.ParseRejectsUnknownTag : Prop :=
  ∀ (s : State) (seq : Byte) (ct : Ciphertext),
    let ks := Config.E s.key (nonce seq)
    ct[0] ^^^ ks[0] ≠ 1 → ct[0] ^^^ ks[0] ≠ 2 →
    let t := { s with responses := s.responses ++ [.unknownFrameType] }
    exec (.frame seq ct) s = .next t ∧ (s.Initialized → exec (.parse (seq :: ct.toList)) s = .next t)

/-- On an Initialized block PARSE of any length but 12 answers LENGTH_ERROR and no state changes; the key and the bytes play
no part (R121). -/
def Obligations.ParseRejectsWrongLength : Prop :=
  ∀ (s : State) (data : List Byte), data.length ≠ 12 →
    (s.Initialized → exec (.parse data) s = .next { s with responses := s.responses ++ [.lengthError] }) ∧
    ∀ (E : Cipher) (key : Key), parseData E key data = .lengthError

/-- The two record rows answer what they hold, in every state; the pad and the unused bytes play no part (R96, R100, R124,
R67). Ignoring them is D23's choice (log entry 16). That the rows have a meaning of their own, in every state and with no
lifecycle check, is DEDUCED, log entry 10. -/
def Obligations.RecordRowsAnswerTheirFields : Prop :=
  ∀ (s : State) (dev : Byte),
    (∀ (m : Measurement) (pad : Byte), exec (.recMeas dev m pad) s =
      .next { s with responses := s.responses ++ [.ok (.parsed dev (.measurement m))] }) ∧
    (∀ (order : Order) (hi : Vector Byte Config.ctrlBytesBefore) (lo : Vector Byte Config.ctrlBytesAfter), exec (.recCtrl dev order hi lo) s =
      .next { s with responses := s.responses ++ [.ok (.parsed dev (.control order))] })

/-- PARSE of a frame runs FRAME, and FRAME runs the instruction its decrypted record decodes to, or answers the type error: the
second-level dispatch (R120, R122, R123, R124, R56). That FRAME and the record rows run so in every state, with no lifecycle
check of their own, is DEDUCED, log entry 10. -/
def Obligations.ParseDispatchesThroughRows : Prop :=
  (∀ (s : State) (data : List Byte) (i : Instr), s.Initialized → decode (.frame data) = .ok i →
    exec (.parse data) s = exec i s) ∧
  (∀ (s : State) (seq : Byte) (ct : Ciphertext),
    match decode (.record (xform Config.E s.key ct (nonce seq))) with
    | .ok i => exec (.frame seq ct) s = exec i s
    | .error _ => exec (.frame seq ct) s = .next { s with responses := s.responses ++ [.unknownFrameType] })

/-! ### The lifecycle and the exceptions -/

/-- The fatal exception: a command that breaks the initialization contract sets FAULT, answers FATAL and changes nothing
else, whatever its operands and before any other check. The second INIT (D11), the sticky bit (D10, D12) and the
order of the checks (D17) are the spec's choices. -/
def Obligations.ViolationTakesFatalException : Prop :=
  ∀ (i : Instr) (s : State), IsCommand i = true →
    (s.fault = true ∨ (IsInit i = true ∧ s.life = .initialized) ∨ (IsInit i = false ∧ s.life = .uninitialized)) →
    exec i s = .next { s with fault := true, responses := s.responses ++ [.fatal] }

/-- The lifecycle table, the column of every command in every row: where it leads and what is answered (R134). The Faulted row
and both violations are the spec's choices (D10, D11, D12; log entry 12), INIT's empty payload D26's (log entry 18). -/
def Obligations.LifecycleTableHolds : Prop :=
  ∀ (i : Instr) (s t : State), IsCommand i = true → exec i s = .next t →
    (s.Uninitialized → IsInit i = true → t.Initialized ∧ i = .init t.key ∧ t.responses = s.responses ++ [.ok .none]) ∧
    (s.Uninitialized → IsInit i = false →
      t.Faulted ∧ t.key = s.key ∧ t.life = .uninitialized ∧ t.responses = s.responses ++ [.fatal]) ∧
    (s.Initialized → IsInit i = true →
      t.Faulted ∧ t.key = s.key ∧ t.life = .initialized ∧ t.responses = s.responses ++ [.fatal]) ∧
    (s.Initialized → IsInit i = false →
      t.Initialized ∧ t.key = s.key ∧ ∃ r, t.responses = s.responses ++ [r] ∧ r ≠ .fatal) ∧
    (s.Faulted → t.Faulted ∧ t.key = s.key ∧ t.life = s.life ∧ t.responses = s.responses ++ [.fatal])

/-- Every instruction answers in every state, with exactly one response: no error but the ones named exists, and nothing
blocks (R149, R166). That the rows FRAME, REC.MEAS and REC.CTRL answer in every state is DEDUCED, log entry 10. -/
def Obligations.EveryInstructionAnswersOnce : Prop :=
  ∀ (i : Instr) (s : State), ∃ t r, exec i s = .next t ∧ t.responses = s.responses ++ [r]

/-- The frame of every instruction: only INIT writes KEY and LIFE, only the fatal exception writes FAULT, and nothing touches
what is pending or the reset count. On an Initialized block BUILDM, BUILDC and PARSE write no state at all
(R14, R15, R119, R153). That a Faulted block keeps KEY and LIFE and that only the fatal exception writes FAULT (R16, R154)
rest on the spec's choices D10 and D12 (log entry 12); that the rows FRAME, REC.MEAS and REC.CTRL write nothing in any
state is DEDUCED, log entry 10. -/
def Obligations.InstructionFrame : Prop :=
  ∀ (i : Instr) (s t : State), exec i s = .next t →
    t.pending = s.pending ∧ t.resets = s.resets ∧
    (IsInit i = false → t.key = s.key ∧ t.life = s.life) ∧
    (t.fault = s.fault ∨ t.responses = s.responses ++ [.fatal]) ∧
    (s.fault = true → t.key = s.key ∧ t.life = s.life) ∧
    (s.Initialized → IsInit i = false → t = { s with responses := t.responses })

/-- Two build or parse commands on an Initialized block commute: in either order each gets the same response. The spec's
inference (R43). -/
def Obligations.BuildsAndParsesCommute : Prop :=
  ∀ (s : State) (i j : Instr), s.Initialized → IsInit i = false → IsInit j = false →
    ∃ ri rj,
      exec i s = .next { s with responses := s.responses ++ [ri] } ∧
      exec j { s with responses := s.responses ++ [ri] } = .next { s with responses := s.responses ++ [ri, rj] } ∧
      exec j s = .next { s with responses := s.responses ++ [rj] } ∧
      exec i { s with responses := s.responses ++ [rj] } = .next { s with responses := s.responses ++ [rj, ri] }

/-- The status codes and the reported frame types. Both numberings are the spec's choices (D3, D22). -/
def Obligations.StatusCodesAreFixed : Prop :=
  (∀ p, (Response.ok p).status = 0b00) ∧ Response.lengthError.status = 0b01 ∧
  Response.unknownFrameType.status = 0b10 ∧ Response.fatal.status = 0b11 ∧
  (∀ dev m, (Payload.parsed dev (.measurement m)).frameType = some 1) ∧
  (∀ dev order, (Payload.parsed dev (.control order)).frameType = some 2)

/-! ### Whole-block properties -/

/-- What BUILDM builds under a key, any block with that key parses back to the same deviceId and Measurement: a headline. The
spec infers it from the rules (R125). -/
def Obligations.MeasurementFrameRoundTrip : Prop :=
  ∀ (s s' : State) (m : Measurement) (dev seq : Byte), s.Initialized → s'.Initialized → s'.key = s.key →
    ∃ f : Frame,
      exec (.buildm m dev seq) s = .next { s with responses := s.responses ++ [.ok (.frame f)] } ∧
      exec (.parse f.toList) s' =
        .next { s' with responses := s'.responses ++ [.ok (.parsed dev (.measurement m))] }

/-- What BUILDC builds under a key, any block with that key parses back to the same deviceId and order. The spec infers it from
the rules (R125). -/
def Obligations.ControlFrameRoundTrip : Prop :=
  ∀ (s s' : State) (order : Order) (dev seq : Byte), s.Initialized → s'.Initialized → s'.key = s.key →
    ∃ f : Frame,
      exec (.buildc order dev seq) s = .next { s with responses := s.responses ++ [.ok (.frame f)] } ∧
      exec (.parse f.toList) s' =
        .next { s' with responses := s'.responses ++ [.ok (.parsed dev (.control order))] }

/-- Under another key a frame of either type gets the type error, or an OK response with whatever comes out; its tag and the
two keystreams' first bytes decide which, for every `E`; and PARSE on another block answers just that. The spec's inference
(R128), over D6's pairing (log entry 13). -/
def Obligations.OtherKeyGivesTypeErrorOrValues : Prop :=
  (∀ (E : Cipher) (key key' : Key) (f : TypedFrame),
    let tag := frameTag (frameTypeOf f.payload) ^^^
      (E key (nonce f.sequenceNumber))[0] ^^^ (E key' (nonce f.sequenceNumber))[0]
    let r := parseData E key' (buildTypedFrame E key f).toList
    (tag ≠ 1 → tag ≠ 2 → r = .unknownFrameType) ∧
    (tag = 1 → ∃ d m', r = .ok (.parsed d (.measurement m'))) ∧
    (tag = 2 → ∃ d order, r = .ok (.parsed d (.control order)))) ∧
  (∀ (s s' : State) (f : TypedFrame), s.Initialized → s'.Initialized →
    let wire := buildTypedFrame Config.E s.key f
    exec (decodeCommand (buildCommand f)) s =
      .next { s with responses := s.responses ++ [.ok (.frame wire)] } ∧
    exec (.parse wire.toList) s' =
      .next { s' with responses := s'.responses ++ [parseData Config.E s'.key wire.toList] })

/-- No integrity: changing one ciphertext byte by an XOR difference changes that plaintext byte by it and no other, and XORing
frame[1] with 3 turns an accepted Measurement frame into an accepted Control frame of the same device. The spec's
inference (R126). -/
def Obligations.FlippedBitsPassThrough : Prop :=
  (∀ (E : Cipher) (key : Key) (seq : Byte) (ct : Ciphertext) (j : Nat) (h : j < 11) (d : Byte),
    openRecord E key seq (ct.set j (ct[j] ^^^ d)) =
      (openRecord E key seq ct).set j ((openRecord E key seq ct)[j] ^^^ d)) ∧
  (∀ (s : State) (seq : Byte) (ct : Ciphertext) (dev : Byte) (m : Measurement), s.Initialized →
    exec (.parse (seq :: ct.toList)) s =
      .next { s with responses := s.responses ++ [.ok (.parsed dev (.measurement m))] } →
    ∃ order, exec (.parse (seq :: (ct.set 0 (ct[0] ^^^ 3#8)).toList)) s =
      .next { s with responses := s.responses ++ [.ok (.parsed dev (.control order))] })

/-- KEY is set once: over any run without a reset an Initialized block's KEY and LIFE stay (R14, R136), and a latched FAULT
stays (R16, R156; the spec's choice D12, log entry 12). -/
def Obligations.KeyStaysUntilReset : Prop :=
  ∀ (n : Nat) (s t : State), s.life = .initialized → .reset ∉ s.pending.take n →
    runFor n s = .next t →
    t.key = s.key ∧ t.life = .initialized ∧ (s.fault = true → t.fault = true)

/-- The fault is sticky: a Faulted block answers FATAL to each of the next n commands, with nothing else changed. That it stays
so until reset is the spec's choice (D12). -/
def Obligations.FaultAnswersFatalUntilReset : Prop :=
  ∀ (n : Nat) (s : State), s.fault = true → n ≤ s.pending.length → .reset ∉ s.pending.take n →
    runFor n s =
      .next { s with pending := s.pending.drop n, responses := s.responses ++ List.replicate n .fatal }

/-- KEY cannot be observed while it is unset: two states that differ only in an unset KEY step to two such states, with the same
responses (R14). That a reset makes KEY unset is D13's choice. -/
def Obligations.UnsetKeyIsUnobservable : Prop :=
  ∀ s t s' : State, s.AgreeButUnsetKey t → step s = .next s' →
    ∃ t', step t = .next t' ∧ s'.AgreeButUnsetKey t'

/-- The responses are output only: a step reads none of them (R19). -/
def Obligations.ResponsesAreNotState : Prop :=
  ∀ (s t : State) (earlier : List Response), step s = .next t →
    step { s with responses := earlier ++ s.responses } = .next { t with responses := earlier ++ t.responses }

/-- A host that keeps its contract never meets the fatal exception: every step keeps this invariant (R164, R173). -/
def Obligations.StepKeepsContract : Prop :=
  ∀ s t : State, s.ContractInv → step s = .next t → t.ContractInv

/-- Every step keeps: a latched FAULT was answered FATAL, and every PARSE still to come fits the port (R16, R27). The sticky
FAULT that a violation sets is the spec's choice (D10, D12; log entry 12), the port's bound is D15's (log entry 3). -/
def Obligations.StepKeepsFaultRecordAndInputs : Prop :=
  ∀ s t : State, step s = .next t → (s.FaultAnswered → t.FaultAnswered) ∧ (s.InputsFit → t.InputsFit)

/-- Reset meets the invariants, whatever contract-keeping events the host then issues. -/
def Obligations.ResetMeetsInvariants : Prop :=
  State.reset.ContractInv ∧ State.reset.FaultAnswered ∧ State.reset.InputsFit ∧
  ∀ events, ContractOk .uninitialized events = true → { State.reset with pending := events }.ContractInv

/-- What reset leaves: Uninitialized, no fault, no run begun; nothing is said of KEY, which the spec leaves unspecified
(D13; log entry 2). -/
def Obligations.ResetLeavesUninitialized : Prop :=
  State.reset.life = .uninitialized ∧ State.reset.life.bit = 0 ∧ faultBit State.reset.fault = 0 ∧
  State.reset.pending = [] ∧ State.reset.responses = []

/-- A contract-keeping run of any length completes and is not faulted (R164, R184). -/
def Obligations.ContractRunIsNotFaulted : Prop :=
  ∀ (n : Nat) (s : State), s.ContractInv → ∃ t, runFor n s = .next t ∧ ¬ t.FaultedRun

/-- Every run ends: as many steps as there are events take them all, and every command has got one response
(R166, R184). -/
def Obligations.RunEndsWithEveryCommandAnswered : Prop :=
  ∀ s : State, ∃ t, runFor s.pending.length s = .next t ∧ t.Ended ∧
    t.responses.length = s.responses.length + commandCount s.pending

/-! ### The host's sequence counter -/

/-- The reference sender's counter advances by 1 modulo 256 for each frame (R160). The sender is D24's choice; that its counter
advances for each frame asked for, whatever the block answers, is this model's (log entry 11). -/
def Obligations.SequenceCounterAdvances : Prop :=
  ∀ (h : Sender) (records : List (DeviceId × TypedRecord)),
    (senderFrames h records).length = records.length ∧
    (∀ (n : Nat) (hn : n < (senderFrames h records).length),
      (senderFrames h records)[n].sequenceNumber.toNat = (h.counter.toNat + n) % 256) ∧
    (senderAfter h records.length).counter.toNat = (h.counter.toNat + records.length) % 256

/-- The 257th frame of a session is built with the 1st one's keystream, neither refused nor changed: its XOR with the 1st is
the XOR of the two records, so equal records give byte-identical frames (R176), whichever types the two are of. Over D24's
sender, whose counter advances for each frame asked for (log entry 11), D6's pairing (log entry 13), and for a Control
record D8's offset and D29's layout (log entries 4 and 14). -/
def Obligations.NonceSpaceExhaustsAfter256 : Prop :=
  ∀ (s : State) (h : Sender) (records : List (DeviceId × TypedRecord)) (n : Nat) (dev dev' : DeviceId)
    (p p' : TypedRecord), s.Initialized → records[n]? = some (dev, p) → records[n + 256]? = some (dev', p') →
    ∃ a b f g, (senderFrames h records)[n]? = some a ∧ (senderFrames h records)[n + 256]? = some b ∧
      exec (decodeCommand (buildCommand a)) s =
        .next { s with responses := s.responses ++ [.ok (.frame f)] } ∧
      exec (decodeCommand (buildCommand b)) s =
        .next { s with responses := s.responses ++ [.ok (.frame g)] } ∧
      f[0] = g[0] ∧
      (∀ (i : Nat) (h : i < 11), f[i + 1]'(Nat.succ_lt_succ h) ^^^ g[i + 1]'(Nat.succ_lt_succ h) =
        (plaintextRecord dev p)[i] ^^^ (plaintextRecord dev' p')[i]) ∧
      (dev = dev' → p = p' → f = g)

/-- The nonce duty gives any two different frames under a key different nonce blocks, and cannot be met for more than 256
frames (R161). -/
def Obligations.NonceDutyHoldsForAtMost256 : Prop :=
  ∀ frames : List TypedFrame, NoNonceReuse frames → frames.Nodup →
    (∀ f ∈ frames, ∀ g ∈ frames, f ≠ g → nonce f.sequenceNumber ≠ nonce g.sequenceNumber) ∧
    frames.length ≤ 256
end

