-- ==== Sys2Proof/Laws/Codec.lean ====
section
/-! SUPPORT. What each operation of the codec layers does to each byte, said once. -/

namespace Sys2Proof.Machine

@[simp] theorem zeros_getElem (n i : Nat) (h : i < n) : (zeros n)[i] = 0 := by simp [zeros]

@[simp] theorem xform_getElem {L : Nat} (E : Cipher) (key : Key) (buf : Vector Byte L) (nb : Block) (i : Nat)
    (h : i < L) :
    (xform E key buf nb)[i] =
      buf[i] ^^^ (ksBlock E key nb (i / 16))[i % 16]'(Nat.mod_lt _ (by decide)) := by
  simp [xform]

@[simp] theorem ksBlock_zero (E : Cipher) (key : Key) (nb : Block) : ksBlock E key nb 0 = E key nb := rfl

theorem nonce_getElem (s : Byte) (i : Nat) (h : i < 16) : (nonce s)[i] = if i = 15 then s else 0 := by
  simp only [nonce, memWrite8, Vector.getElem_set, zeros_getElem, Config.seqNonceIndex]
  split <;> split <;> first | rfl | omega

theorem stamp_getElem (r : Record) (tag deviceId : Byte) (i : Nat) (h : i < 11) :
    (stamp r tag deviceId)[i] = if i = 0 then tag else if i = 1 then deviceId else r[i] := by
  simp only [stamp, memWrite8, Vector.getElem_set]
  by_cases h0 : i = 0
  · subst h0; rfl
  · by_cases h1 : i = 1
    · subst h1; rfl
    · rw [if_neg (by omega), if_neg (by omega), if_neg h0, if_neg h1]

@[simp] theorem frameCiphertext_getElem (f : Frame) (i : Nat) (h : i < 11) :
    (frameCiphertext f)[i] = f[i + 1]'(Nat.succ_lt_succ h) := by simp [frameCiphertext]

/-- A field's two bytes joined again are the field. -/
theorem join_split (v : U16) : (v.extractLsb' 8 8 ++ v.extractLsb' 0 8 : U16) = v := by
  apply BitVec.eq_of_toNat_eq
  simp only [BitVec.toNat_append, BitVec.extractLsb'_toNat]
  have : v.toNat < 2 ^ 16 := v.isLt
  rw [← Nat.shiftLeft_add_eq_or_of_lt (by omega)]
  simp only [Nat.shiftRight_eq_div_pow, Nat.shiftLeft_eq]
  omega

/-- Two bytes joined as a field are the number the high byte counts 256 times (R34). -/
theorem join_toNat (hi lo : Byte) : (hi ++ lo : U16).toNat = hi.toNat * 256 + lo.toNat := by
  simp only [BitVec.toNat_append]
  have := lo.isLt
  rw [← Nat.shiftLeft_add_eq_or_of_lt (by omega), Nat.shiftLeft_eq]

theorem highByte_join (hi lo : Byte) : (hi ++ lo : U16).extractLsb' 8 8 = hi := by
  apply BitVec.eq_of_toNat_eq
  rw [BitVec.extractLsb'_toNat, join_toNat, Nat.shiftRight_eq_div_pow]
  have := hi.isLt
  have := lo.isLt
  omega

theorem lowByte_join (hi lo : Byte) : (hi ++ lo : U16).extractLsb' 0 8 = lo := by
  apply BitVec.eq_of_toNat_eq
  rw [BitVec.extractLsb'_toNat, join_toNat, Nat.shiftRight_eq_div_pow]
  have := lo.isLt
  omega

theorem kindOfCode_kindCode (k : SensorKind) : kindOfCode (kindCode k) = k := by cases k <;> rfl

theorem kindCode_kindOfCode (c : BitVec 2) : kindCode (kindOfCode c) = c := by revert c; decide

/-- An 11-byte buffer, byte by byte. -/
theorem record_eta (r : Record) :
    r = #v[r[0], r[1], r[2], r[3], r[4], r[5], r[6], r[7], r[8], r[9], r[10]] := by
  have h : ∀ i : Fin 11, r[i] =
      (#v[r[0], r[1], r[2], r[3], r[4], r[5], r[6], r[7], r[8], r[9], r[10]] : Record)[i] := by
    intro i
    fin_cases i <;> rfl
  exact Vector.ext fun i hi => h ⟨i, hi⟩

/-- A field's value fits FIELD_BITS. -/
theorem u16_toNat_lt (v : U16) : v.toNat < 65536 := v.isLt

/-- What BUILD_FRAME serialises for a typed frame is its plaintext sealed (R117, R118). -/
theorem buildTypedFrame_eq (E : Cipher) (key : Key) (f : TypedFrame) :
    buildTypedFrame E key f = sealRecord E key (plaintextRecord f.deviceId f.payload) f.sequenceNumber := by
  obtain ⟨seq, dev, m | order⟩ := f <;> rfl

/-- The first byte of a plaintext record is its type's tag (R56). -/
theorem plaintextRecord_tag (deviceId : DeviceId) (p : TypedRecord) :
    (plaintextRecord deviceId p)[0] = frameTag (frameTypeOf p) := by
  cases p <;> rfl

/-- Format C with the order byte at CTRL_ORDER_OFF = 4, byte by byte (R54). -/
theorem encodeCtrlRecord_eq (deviceId : DeviceId) (order : Order) (hi : Vector Byte Config.ctrlBytesBefore)
    (lo : Vector Byte Config.ctrlBytesAfter) :
    encodeCtrlRecord deviceId order hi lo =
      #v[2, deviceId, hi[0], hi[1], packOrder order, lo[0], lo[1], lo[2], lo[3], lo[4], lo[5]] := by
  have eta : ∀ (h : Vector Byte 2) (l : Vector Byte 6),
      h = #v[h[0], h[1]] ∧ l = #v[l[0], l[1], l[2], l[3], l[4], l[5]] := fun h l => by
    constructor <;> refine Vector.ext fun i hi => ?_
    · match i, hi with
      | 0, _ | 1, _ => rfl
    · match i, hi with
      | 0, _ | 1, _ | 2, _ | 3, _ | 4, _ | 5, _ => rfl
  exact (congrArg₂ (encodeCtrlRecord deviceId order) (eta hi lo).1 (eta hi lo).2).trans rfl

/-- The ignored bytes of a Control record with the order byte at CTRL_ORDER_OFF = 4 (R54). -/
theorem ctrlUnused_eq (r : Record) :
    ctrlUnusedHi r = #v[r[2], r[3]] ∧ ctrlUnusedLo r = #v[r[5], r[6], r[7], r[8], r[9], r[10]] := ⟨rfl, rfl⟩

/-- The plaintext of a Measurement frame, byte by byte (R53). -/
theorem measRecord_eq (m : Measurement) (deviceId : Byte) :
    measRecord m deviceId = encodeMeasRecord deviceId m 0 := rfl

/-- STAMP over what ENC_CTRL writes, for any order byte (R99, R116). -/
theorem stamp_orderByte (b deviceId : Byte) :
    stamp (memWrite8 (memWrite8 (memWrite8 (zeros 11) 0 Config.tagCtrl) 1 Config.deviceIdPlaceholder)
      Config.ctrlOrderOff b) Config.tagCtrl deviceId = #v[2, deviceId, 0, 0, b, 0, 0, 0, 0, 0, 0] := rfl

/-- The plaintext of a Control frame, byte by byte (R54). -/
theorem ctrlRecord_eq (order : Order) (deviceId : Byte) :
    ctrlRecord order deviceId = #v[2, deviceId, 0, 0, packOrder order, 0, 0, 0, 0, 0, 0] :=
  stamp_orderByte _ _

@[simp] theorem sealRecord_zero (E : Cipher) (key : Key) (r : Record) (seq : Byte) :
    (sealRecord E key r seq)[0] = seq := by
  unfold sealRecord
  exact Vector.getElem_append_left (xs := #v[seq]) (by decide)

theorem sealRecord_succ (E : Cipher) (key : Key) (r : Record) (seq : Byte) (i : Nat) (h : i < 11) :
    (sealRecord E key r seq)[i + 1]'(Nat.succ_lt_succ h) = (xform E key r (nonce seq))[i] := by
  unfold sealRecord
  rw [Vector.getElem_append_right (by omega : 1 + 11 > i + 1) (by omega)]
  rfl

theorem frameOfData_toList (f : Frame) : frameOfData f.toList = some f := by
  simp only [frameOfData, Config.frameBytes, Vector.length_toList, dite_true]
  rfl

/-- A frame from its sequence byte and its ciphertext. -/
theorem frameOfData_cons (seq : Byte) (ct : Ciphertext) :
    ∃ f : Frame, frameOfData (seq :: ct.toList) = some f ∧ f[0] = seq ∧ frameCiphertext f = ct := by
  refine ⟨⟨(seq :: ct.toList).toArray, by simp⟩, by simp [frameOfData, Config.frameBytes], rfl, ?_⟩
  refine Vector.ext fun i hi => ?_
  rw [frameCiphertext_getElem]
  show (seq :: ct.toList)[i + 1]'(by simp at hi ⊢; omega) = ct[i]
  simp

theorem frameOfData_of_length (data : List Byte) (h : data.length = 12) :
    ∃ f : Frame, frameOfData data = some f ∧ f.toList = data :=
  ⟨⟨data.toArray, h⟩, by simp [frameOfData, Config.frameBytes, h], rfl⟩

theorem frameOfData_none (data : List Byte) (h : data.length ≠ 12) : frameOfData data = none := by
  simp [frameOfData, Config.frameBytes, h]

/-- The ciphertext of a sealed record. -/
theorem frameCiphertext_sealRecord (E : Cipher) (key : Key) (r : Record) (seq : Byte) :
    frameCiphertext (sealRecord E key r seq) = xform E key r (nonce seq) :=
  Vector.ext fun i hi => by rw [frameCiphertext_getElem, sealRecord_succ _ _ _ _ i hi]

/-- Receiving what was sealed under the same key gives the record back to the type check. -/
theorem openRecord_xform (E : Cipher) (key : Key) (r : Record) (seq : Byte) :
    openRecord E key seq (xform E key r (nonce seq)) = r := by
  ext i h
  simp [openRecord]

theorem recordResponse_meas (r : Record) (h : r[0] = 1) :
    recordResponse r = .ok (.parsed r[1] (.measurement (decMeas r))) := if_pos h

theorem recordResponse_ctrl (r : Record) (h : r[0] = 2) :
    recordResponse r = .ok (.parsed r[1] (.control (decCtrl r))) :=
  (if_neg (by rw [show memRead8 r 0 = 2 from h]; decide)).trans (if_pos h)

theorem recordResponse_unknown (r : Record) (h1 : r[0] ≠ 1) (h2 : r[0] ≠ 2) :
    recordResponse r = .unknownFrameType := (if_neg h1).trans (if_neg h2)

/-- What PARSE_FRAME answers is what the record's own instruction answers, or the type error. -/
theorem recordResponse_decode (r : Record) :
    (decodeRecord r = .error .unknownTag ∧ recordResponse r = .unknownFrameType) ∨
      (∃ m pad, decodeRecord r = .ok (.recMeas r[1] m pad) ∧
        recordResponse r = .ok (.parsed r[1] (.measurement m))) ∨
      (∃ order hi lo, decodeRecord r = .ok (.recCtrl r[1] order hi lo) ∧
        recordResponse r = .ok (.parsed r[1] (.control order))) := by
  by_cases h1 : r[0] = 1
  · exact .inr (.inl ⟨_, _, if_pos h1, recordResponse_meas r h1⟩)
  · by_cases h2 : r[0] = 2
    · exact .inr (.inr ⟨_, _, _, (if_neg h1).trans (if_pos h2), recordResponse_ctrl r h2⟩)
    · exact .inl ⟨(if_neg h1).trans (if_neg h2), recordResponse_unknown r h1 h2⟩

end Sys2Proof.Machine
end

