-- ==== Sys2Proof/Laws/State.lean ====
section
/-! SUPPORT. What each named operation over State does to each field, once, so that no proof unfolds a record update. -/

namespace Sys2Proof.Machine

@[simp] theorem State.respond_key (s : State) (r : Response) : (s.respond r).key = s.key := rfl
@[simp] theorem State.respond_life (s : State) (r : Response) : (s.respond r).life = s.life := rfl
@[simp] theorem State.respond_fault (s : State) (r : Response) : (s.respond r).fault = s.fault := rfl
@[simp] theorem State.respond_pending (s : State) (r : Response) : (s.respond r).pending = s.pending := rfl
@[simp] theorem State.respond_responses (s : State) (r : Response) : (s.respond r).responses = s.responses ++ [r] := rfl
@[simp] theorem State.respond_resets (s : State) (r : Response) : (s.respond r).resets = s.resets := rfl

@[simp] theorem State.loadKey_key (s : State) (k : Key) : (s.loadKey k).key = k := rfl
@[simp] theorem State.loadKey_life (s : State) (k : Key) : (s.loadKey k).life = .initialized := rfl
@[simp] theorem State.loadKey_fault (s : State) (k : Key) : (s.loadKey k).fault = s.fault := rfl
@[simp] theorem State.loadKey_pending (s : State) (k : Key) : (s.loadKey k).pending = s.pending := rfl
@[simp] theorem State.loadKey_responses (s : State) (k : Key) : (s.loadKey k).responses = s.responses := rfl
@[simp] theorem State.loadKey_resets (s : State) (k : Key) : (s.loadKey k).resets = s.resets := rfl

@[simp] theorem State.fatal_key (s : State) : (s.fatal).key = s.key := rfl
@[simp] theorem State.fatal_life (s : State) : (s.fatal).life = s.life := rfl
@[simp] theorem State.fatal_fault (s : State) : (s.fatal).fault = true := rfl
@[simp] theorem State.fatal_pending (s : State) : (s.fatal).pending = s.pending := rfl
@[simp] theorem State.fatal_responses (s : State) : (s.fatal).responses = s.responses ++ [.fatal] := rfl
@[simp] theorem State.fatal_resets (s : State) : (s.fatal).resets = s.resets := rfl

@[simp] theorem State.resetEvent_key (s : State) : (s.resetEvent).key = Config.resetKey s.resets s.key := rfl
@[simp] theorem State.resetEvent_life (s : State) : (s.resetEvent).life = .uninitialized := rfl
@[simp] theorem State.resetEvent_fault (s : State) : (s.resetEvent).fault = false := rfl
@[simp] theorem State.resetEvent_pending (s : State) : (s.resetEvent).pending = s.pending := rfl
@[simp] theorem State.resetEvent_responses (s : State) : (s.resetEvent).responses = s.responses := rfl
@[simp] theorem State.resetEvent_resets (s : State) : (s.resetEvent).resets = s.resets + 1 := rfl

@[simp] theorem State.issue_key (s : State) (e : HostEvent) : (s.issue e).key = s.key := rfl
@[simp] theorem State.issue_life (s : State) (e : HostEvent) : (s.issue e).life = s.life := rfl
@[simp] theorem State.issue_fault (s : State) (e : HostEvent) : (s.issue e).fault = s.fault := rfl
@[simp] theorem State.issue_pending (s : State) (e : HostEvent) : (s.issue e).pending = e :: s.pending := rfl
@[simp] theorem State.issue_responses (s : State) (e : HostEvent) : (s.issue e).responses = s.responses := rfl
@[simp] theorem State.issue_resets (s : State) (e : HostEvent) : (s.issue e).resets = s.resets := rfl

end Sys2Proof.Machine
end

