-- ==== Sys2Proof/Laws/Ops.lean ====
section
/-! SUPPORT. What the shared operations, an instruction and a step can do, said once. -/

namespace Sys2Proof.Machine

theorem State.violates_init (s : State) :
    s.violates true = false ↔ s.Uninitialized := by
  cases hl : s.life <;> simp [State.violates, State.Uninitialized, hl]

theorem State.violates_other (s : State) :
    s.violates false = false ↔ s.Initialized := by
  cases hl : s.life <;> simp [State.violates, State.Initialized, hl]

@[simp] theorem State.violates_of_fault (s : State) (isInit : Bool) (h : s.fault = true) :
    s.violates isInit = true := by simp [State.violates, h]

theorem State.guarded_passes (s : State) (isInit : Bool) (done : State) (h : s.violates isInit = false) :
    s.guarded isInit done = done := by simp [State.guarded, h]

theorem State.guarded_fails (s : State) (isInit : Bool) (done : State) (h : s.violates isInit = true) :
    s.guarded isInit done = s.fatal := by simp [State.guarded, h]

/-- A guarded command either takes the fatal exception or does its work. -/
theorem State.guarded_cases (s : State) (isInit : Bool) (done : State) :
    s.violates isInit = true ∧ s.guarded isInit done = s.fatal ∨
      s.violates isInit = false ∧ s.guarded isInit done = done := by
  cases h : s.violates isInit <;> simp [State.guarded, h]

/-- The response an instruction gives when no contract violation stops it. -/
def normalResponse (i : Instr) (s : State) : Response :=
  match i with
  | .init _ => .ok .none
  | .buildm m dev seq => .ok (.frame (buildFrameM Config.E s.key m dev seq))
  | .buildc order dev seq => .ok (.frame (buildFrameC Config.E s.key order dev seq))
  | .parse data => parseData Config.E s.key data
  | .recMeas dev m _ => .ok (.parsed dev (.measurement m))
  | .recCtrl dev order _ _ => .ok (.parsed dev (.control order))
  | .frame seq ct => recordResponse (openRecord Config.E s.key seq ct)

/-- Everything an instruction can do: the fatal exception, a key load, or one response. -/
theorem exec_cases (i : Instr) (s : State) :
    (IsCommand i = true ∧ s.violates (IsInit i) = true ∧ exec i s = .next s.fatal) ∨
      (∃ k, i = .init k ∧ s.Uninitialized ∧ exec i s = .next ((s.loadKey k).respond (.ok .none))) ∨
      (IsInit i = false ∧ (IsCommand i = true → s.Initialized) ∧
        exec i s = .next (s.respond (normalResponse i s))) := by
  cases i with
  | init k =>
    rcases s.guarded_cases true ((s.loadKey k).respond (.ok .none)) with ⟨hv, hg⟩ | ⟨hv, hg⟩
    · exact .inl ⟨rfl, hv, by simp [exec, execInit, hg]⟩
    · exact .inr (.inl ⟨k, rfl, s.violates_init.1 hv, by simp [exec, execInit, hg]⟩)
  | buildm m dev seq =>
    rcases s.guarded_cases false (s.respond (normalResponse (.buildm m dev seq) s)) with ⟨hv, hg⟩ | ⟨hv, hg⟩
    · exact .inl ⟨rfl, hv, congrArg _ hg⟩
    · exact .inr (.inr ⟨rfl, fun _ => s.violates_other.1 hv, congrArg _ hg⟩)
  | buildc order dev seq =>
    rcases s.guarded_cases false (s.respond (normalResponse (.buildc order dev seq) s)) with ⟨hv, hg⟩ | ⟨hv, hg⟩
    · exact .inl ⟨rfl, hv, congrArg _ hg⟩
    · exact .inr (.inr ⟨rfl, fun _ => s.violates_other.1 hv, congrArg _ hg⟩)
  | parse data =>
    rcases s.guarded_cases false (s.respond (normalResponse (.parse data) s)) with ⟨hv, hg⟩ | ⟨hv, hg⟩
    · exact .inl ⟨rfl, hv, congrArg _ hg⟩
    · exact .inr (.inr ⟨rfl, fun _ => s.violates_other.1 hv, congrArg _ hg⟩)
  | recMeas dev m pad => exact .inr (.inr ⟨rfl, by simp [IsCommand], rfl⟩)
  | recCtrl dev order hi lo => exact .inr (.inr ⟨rfl, by simp [IsCommand], rfl⟩)
  | frame seq ct => exact .inr (.inr ⟨rfl, by simp [IsCommand], rfl⟩)

/-- On an Initialized block every instruction but INIT does its work and answers. -/
theorem exec_initialized (i : Instr) (s : State) (hs : s.Initialized) (hi : IsInit i = false) :
    exec i s = .next (s.respond (normalResponse i s)) := by
  rcases exec_cases i s with ⟨_, hv, _⟩ | ⟨k, hk, _, _⟩ | ⟨_, _, h⟩
  · rw [hi, s.violates_other.2 hs] at hv
    cases hv
  · rw [hk] at hi
    cases hi
  · exact h

/-- The work of an instruction reads no state but KEY. -/
theorem normalResponse_key (i : Instr) (s t : State) (h : s.key = t.key) :
    normalResponse i s = normalResponse i t := by
  cases i <;> simp [normalResponse, h]

@[simp] theorem isCommand_decodeCommand (c : Command) : IsCommand (decodeCommand c) = true := by
  unfold decodeCommand
  split
  · rfl
  split
  · rfl
  split <;> rfl

theorem isInit_decodeCommand (c : Command) : IsInit (decodeCommand c) = decide (c.op = 0) := by
  unfold decodeCommand
  by_cases h0 : c.op = 0
  · rw [if_pos h0]; exact (decide_eq_true h0).symm
  · rw [if_neg h0, decide_eq_false h0]
    split
    · rfl
    split <;> rfl

theorem step_idle (s : State) (h : s.pending = []) : step s = .next s := by simp [step, h]

theorem step_reset (s : State) (rest : List HostEvent) (h : s.pending = .reset :: rest) :
    step s = .next { s with pending := rest }.resetEvent := by simp [step, h]

theorem step_command (s : State) (c : Command) (rest : List HostEvent) (h : s.pending = .command c :: rest) :
    step s = exec (decodeCommand c) { s with pending := rest } := by simp [step, h]

/-- Everything a step can do. -/
theorem step_cases (s t : State) (h : step s = .next t) :
    (s.pending = [] ∧ t = s) ∨
      (∃ rest, s.pending = .reset :: rest ∧ t = { s with pending := rest }.resetEvent) ∨
      (∃ c rest, s.pending = .command c :: rest ∧
        exec (decodeCommand c) { s with pending := rest } = .next t) := by
  match hp : s.pending with
  | [] => exact .inl ⟨rfl, by simpa [step_idle s hp] using h.symm⟩
  | .reset :: rest => exact .inr (.inl ⟨rest, rfl, by simpa [step_reset s rest hp] using h.symm⟩)
  | .command c :: rest => exact .inr (.inr ⟨c, rest, rfl, step_command s c rest hp ▸ h⟩)

@[simp] theorem runFor_zero (s : State) : runFor 0 s = .next s := rfl

theorem runFor_succ (n : Nat) (s t : State) (h : step s = .next t) : runFor (n + 1) s = runFor n t := by
  simp [runFor, h]

end Sys2Proof.Machine
end

