-- ==== Sys2Proof/Laws/PerInstr.lean ====
section
/-! SUPPORT. One fact per constructor: the encoding of a well-formed instruction is a bit pattern its port or buffer can
hold (spec/10_state.md R27, spec/30_encoding.md R51, R56). -/

namespace Sys2Proof.Laws.EncodingFits

/-- What the command port can present, a record PARSE accepts, a frame of the right length. -/
def Fits : Encoded → Prop
  | .command c => c.data.length ≤ Config.maxInLen
  | .record r => r[0] = Config.tagMeas ∨ r[0] = Config.tagCtrl
  | .frame data => data.length = Config.frameBytes

def Statement (i : Instr) : Prop := i.wellFormed = true → Fits (encode i)

theorem init (key : Key) : Statement (.init key) := fun _ => Nat.zero_le _

theorem buildm (m : Measurement) (deviceId : DeviceId) (sequenceNumber : SequenceNumber) :
    Statement (.buildm m deviceId sequenceNumber) := fun _ => Nat.zero_le _

theorem buildc (order : Order) (deviceId : DeviceId) (sequenceNumber : SequenceNumber) :
    Statement (.buildc order deviceId sequenceNumber) := fun _ => Nat.zero_le _

theorem parse (data : List Byte) : Statement (.parse data) := fun h =>
  (of_decide_eq_true h : data.length ≤ Config.maxInLen)

theorem recMeas (deviceId : DeviceId) (m : Measurement) (pad : Byte) : Statement (.recMeas deviceId m pad) :=
  fun _ => .inl rfl

theorem recCtrl (deviceId : DeviceId) (order : Order) (unusedHi : Vector Byte Config.ctrlBytesBefore)
    (unusedLo : Vector Byte Config.ctrlBytesAfter) : Statement (.recCtrl deviceId order unusedHi unusedLo) :=
  fun _ => .inr (by rw [Machine.encodeCtrlRecord_eq]; rfl)

theorem frame (sequenceNumber : SequenceNumber) (ciphertext : Ciphertext) :
    Statement (.frame sequenceNumber ciphertext) := fun _ => by simp [encode, Fits, Config.frameBytes]

end Sys2Proof.Laws.EncodingFits
end

