-- ==== Sys2Proof/Tests/Slice0.lean ====
section
/-! SUPPORT. Small tests from the spec's own vectors (spec/95_test_vectors.md, V-numbers) and rules, and a witness for the
hypotheses of every statement that has any. -/

namespace Sys2Proof.Tests

open Sys2Proof Sys2Proof.Machine

/-! ### Well-formedness -/

/-- The one check there is refuses a PARSE longer than the port can present (R64). -/
theorem smoke_wellFormed_refuses_overlong :
    (Instr.parse (List.replicate (Config.maxInLen + 1) 0)).wellFormed = false := by
  simp [Instr.wellFormed]

/-- 12 and 13 bytes fit every port (D15). -/
theorem smoke_wellFormed_admits_thirteen :
    (Instr.parse (List.replicate 13 0)).wellFormed = true := by
  simp [Instr.wellFormed, Config.maxInLen]

/-! ### Decoding: words written out from the spec's encodings -/

theorem test_decode_init : decode (.command { zeroCommand 0b00 with
    key := #v[0, 1, 2, 3, 4, 5, 6, 7, 8, 9, 10, 11, 12, 13, 14, 15] }) =
      .ok (.init #v[0, 1, 2, 3, 4, 5, 6, 7, 8, 9, 10, 11, 12, 13, 14, 15]) := by decide

/-- P1 step 2: t = 0x09C4, h = 0x1194, p = 0x2794, l = 0x012C. -/
theorem test_decode_buildm : decode (.command { zeroCommand 0b01 with
    measurement := ⟨2500, 0x1194, 0x2794, 300⟩, deviceId := 2, sequenceNumber := 7 }) =
      .ok (.buildm ⟨2500, 4500, 10132, 300⟩ 2 7) := by decide

/-- P2 step 3: order = [1, 0, 3, 2]. -/
theorem test_decode_buildc : decode (.command { zeroCommand 0b10 with
    order := #v[kindOfCode 1, kindOfCode 0, kindOfCode 3, kindOfCode 2], deviceId := 9, sequenceNumber := 0 }) =
      .ok (.buildc #v[.illuminance, .temperature, .pressure, .humidity] 9 0) := by decide

theorem test_decode_parse :
    decode (.command { zeroCommand 0b11 with data := [5, 6, 7] }) = .ok (.parse [5, 6, 7]) := by decide

/-- V22's record as the table's 88-bit word (R73): rec[0] in the top byte. -/
theorem test_decode_recMeas :
    decodeTableWord 88 0x01FF8000FFFF0000FFFF00 = some (.recMeas 255 ⟨-32768, 65535, 0, -1⟩ 0) := by decide

/-- V35's record as the table's 88-bit word (R73). -/
theorem test_decode_recCtrl :
    decodeTableWord 88 0x0233DEAD1BBEEF01020304 =
      some (.recCtrl 0x33 #v[.pressure, .humidity, .illuminance, .temperature] #v[0xDE, 0xAD]
        #v[0xBE, 0xEF, 0x01, 0x02, 0x03, 0x04]) := by decide

/-- V50's frame as the table's 96-bit word: the sequence byte in the top byte. -/
theorem test_decode_frame :
    decodeTableWord 96 0x2A01030BC71591219309250A =
      some (.frame 0x2A #v[0x01, 0x03, 0x0B, 0xC7, 0x15, 0x91, 0x21, 0x93, 0x09, 0x25, 0x0A]) := by decide

theorem test_decode_rejects_tag_255 : decodeTableWord 88 0xFF00000000000000000000 = none := by decide

theorem test_decode_rejects_width : decodeTableWord 72 0 = none := by decide

/-- V22's record is what the encoder gives. -/
theorem test_encode_recMeas : encode (.recMeas 255 ⟨-32768, 65535, 0, -1⟩ 0) =
    .record #v[0x01, 0xFF, 0x80, 0x00, 0xFF, 0xFF, 0x00, 0x00, 0xFF, 0xFF, 0x00] := by decide

/-- V34's record is what the encoder gives. -/
theorem test_encode_recCtrl :
    encode (.recCtrl 9 #v[.illuminance, .temperature, .pressure, .humidity] #v[0, 0] #v[0, 0, 0, 0, 0, 0]) =
      .record #v[0x02, 0x09, 0x00, 0x00, 0xB1, 0x00, 0x00, 0x00, 0x00, 0x00, 0x00] := by decide

/-! ### Shared operations -/

/-- V7: -300 is stored as FE D4, high byte first. -/
theorem test_memWrite16_signed : memWrite16 (zeros 3) 1 (toU16 (-300)) = #v[0x00, 0xFE, 0xD4] := by decide

/-- V8, V9: 7F FF and 80 00 read as the ends of the signed range. -/
theorem test_memRead16_signed :
    toS16 (memRead16 (#v[0x7F, 0xFF] : Vector Byte 2) 0) = 32767 ∧
    toS16 (memRead16 (#v[0x80, 0x00] : Vector Byte 2) 0) = -32768 := by decide

/-- V14, V15: the carry into byte 14, and the wrap. -/
theorem test_ctrInc_carries :
    ctrInc (nonce 255) = #v[0, 0, 0, 0, 0, 0, 0, 0, 0, 0, 0, 0, 0, 0, 1, 0] ∧
    ctrInc (Vector.replicate 16 0xFF) = zeros 16 := by decide

/-- V29, V31: the packed order byte both ways. -/
theorem test_order_byte :
    packOrder #v[.pressure, .humidity, .illuminance, .temperature] = 0x1B ∧
    unpackOrder 0xE1 = #v[.illuminance, .temperature, .humidity, .pressure] := by decide

/-- The stub cipher of spec/95_test_vectors.md section 3, for tests of the wiring only. -/
def stub : Cipher := fun k x => Vector.ofFn fun i => k[i] ^^^ x[15 - i.val]

/-- The example key `K0`. -/
def k0 : Key := #v[0, 1, 2, 3, 4, 5, 6, 7, 8, 9, 10, 11, 12, 13, 14, 15]

/-- V47: two keystream blocks, the second after a carry. -/
theorem test_xform_two_blocks : xform stub k0 (zeros 20) (nonce 255) =
    #v[0xFF, 0x01, 0x02, 0x03, 0x04, 0x05, 0x06, 0x07, 0x08, 0x09, 0x0A, 0x0B, 0x0C, 0x0D, 0x0E, 0x0F,
      0x00, 0x00, 0x02, 0x03] := by decide

/-- V53: signed and unsigned extremes in a frame. -/
theorem test_buildFrameM_stub : buildFrameM stub k0 ⟨-32768, 65535, 0, -1⟩ 255 255 =
    #v[0xFF, 0xFE, 0xFE, 0x82, 0x03, 0xFB, 0xFA, 0x06, 0x07, 0xF7, 0xF6, 0x0A] := by decide

/-- V56: a Control frame. -/
theorem test_buildFrameC_stub : buildFrameC stub k0 #v[.illuminance, .temperature, .pressure, .humidity] 9 7 =
    #v[0x07, 0x05, 0x08, 0x02, 0x03, 0xB5, 0x05, 0x06, 0x07, 0x08, 0x09, 0x0A] := by decide

/-- V59: a Measurement frame whose pad is not zero is accepted. -/
theorem test_parse_stub_measurement :
    parseData stub k0 [0x09, 0x08, 0x10, 0x02, 0x02, 0x04, 0x07, 0x06, 0x04, 0x08, 0x0D, 0xA0] =
      .ok (.parsed 17 (.measurement ⟨1, 2, 3, 4⟩)) := by decide

/-- V5A: a Control frame whose unused bytes are not zero is accepted. -/
theorem test_parse_stub_control :
    parseData stub k0 [0x10, 0x12, 0x32, 0xDC, 0xAE, 0x1F, 0xBB, 0xE9, 0x06, 0x0A, 0x0A, 0x0E] =
      .ok (.parsed 51 (.control #v[.pressure, .humidity, .illuminance, .temperature])) := by decide

/-- V73, V74: tags 3 and 0 are unknown. -/
theorem test_parse_stub_unknown :
    parseData stub k0 [5, 6, 1, 2, 3, 4, 5, 6, 7, 8, 9, 0x0A] = .unknownFrameType ∧
    parseData stub k0 [5, 5, 1, 2, 3, 4, 5, 6, 7, 8, 9, 0x0A] = .unknownFrameType := by decide

/-- V7C: under another key V50 is a type error. -/
theorem test_parse_stub_other_key :
    parseData stub (k0.set 0 0xFF) [0x00, 0x01, 0x03, 0x0B, 0xC7, 0x15, 0x91, 0x21, 0x93, 0x09, 0x25, 0x0A] =
      .unknownFrameType := by decide

/-! ### One step on a small state -/

/-- A block with key `K0` in a lifecycle state, one event waiting. -/
def block (life : Life) (fault : Bool) (e : HostEvent) : State := ⟨k0, life, fault, [e], [], 0⟩

/-- Does a step of the state answer a next state with this property? -/
def stepGives (s : State) (p : State → Bool) : Bool :=
  match step s with
  | .next t => p t
  | .fault _ => false
  | .refused _ => false

/-- R130: INIT stores the key and LIFE. -/
theorem test_init_stores :
    stepGives (block .uninitialized false (.command { zeroCommand 0b00 with key := Vector.replicate 16 0xAA }))
      (fun t => t.key = Vector.replicate 16 0xAA ∧ t.life = .initialized ∧ t.responses = [.ok .none]) = true := by
  decide

/-- V79: a second INIT latches FAULT and the key stays. -/
theorem test_init_twice :
    stepGives (block .initialized false (.command { zeroCommand 0b00 with key := Vector.replicate 16 0xFF }))
      (fun t => t.key = k0 ∧ t.life = .initialized ∧ t.fault = true ∧ t.responses = [.fatal]) = true := by decide

/-- V77: BUILDM on an Uninitialized block is fatal. -/
theorem test_buildm_uninitialized :
    stepGives (block .uninitialized false (.command (zeroCommand 0b01)))
      (fun t => t.fault = true ∧ t.life = .uninitialized ∧ t.responses = [.fatal]) = true := by decide

/-- V7A: a Faulted block answers BUILDC with FATAL. -/
theorem test_buildc_faulted :
    stepGives (block .initialized true (.command (zeroCommand 0b10)))
      (fun t => t.fault = true ∧ t.responses = [.fatal]) = true := by decide

/-- V78: an empty PARSE on an Uninitialized block is FATAL, not LENGTH_ERROR. -/
theorem test_parse_empty_uninitialized :
    stepGives (block .uninitialized false (.command (zeroCommand 0b11)))
      (fun t => t.fault = true ∧ t.responses = [.fatal]) = true := by decide

/-- V72: 13 bytes on an Initialized block are LENGTH_ERROR. -/
theorem test_parse_thirteen :
    stepGives (block .initialized false (.command { zeroCommand 0b11 with data := List.replicate 13 0 }))
      (fun t => t.fault = false ∧ t.key = k0 ∧ t.responses = [.lengthError]) = true := by decide

/-- V25: REC.MEAS ignores its pad. -/
theorem test_recMeas_ignores_pad :
    exec (.recMeas 0x11 ⟨1, 2, 3, 4⟩ 0xAA) State.reset = exec (.recMeas 0x11 ⟨1, 2, 3, 4⟩ 0) State.reset := rfl

/-- V35: REC.CTRL ignores every other byte. -/
theorem test_recCtrl_ignores_rest (order : Order) :
    exec (.recCtrl 0x33 order #v[0xDE, 0xAD] #v[0xBE, 0xEF, 1, 2, 3, 4]) State.reset =
      exec (.recCtrl 0x33 order #v[0, 0] #v[0, 0, 0, 0, 0, 0]) State.reset := rfl

/-- P4: reset leaves the Faulted state. -/
theorem test_reset_clears_fault :
    stepGives (block .initialized true .reset)
      (fun t => t.fault = false ∧ t.life = .uninitialized ∧ t.responses = []) = true := by decide

/-- R169: with nothing pending the block is idle. -/
theorem test_idle : step State.reset = .next State.reset := rfl

/-- R160: the sender's counter goes from 255 to 0. -/
theorem test_sender_wraps :
    (senderFrames ⟨255⟩ [(2, .control (Vector.replicate 4 .humidity)), (2, .control (Vector.replicate 4 .humidity))]).map
      (·.sequenceNumber) = [255, 0] := by decide

/-! ### Witnesses: a state and operands that meet each statement's hypotheses -/

/-- A Measurement for the witnesses (S7). -/
def meas : Measurement := ⟨2500, 4500, 10132, 300⟩

/-- An order for the witnesses (S8). -/
def order : Order := #v[.illuminance, .temperature, .pressure, .humidity]

/-- An Initialized block with nothing pending. -/
def ready : State := ⟨k0, .initialized, false, [], [], 0⟩

/-- The same block with another key. -/
def readyOther : State := { ready with key := k0.set 0 0xFF }

theorem witness_EncodeOfDecodedKeepsEveryBit :
    (∃ i, decode (.record (encodeMeasRecord 2 meas 0xAA)) = .ok i) ∧
    (∃ i, decode (.record (encodeCtrlRecord 2 order #v[1, 2] #v[3, 4, 5, 6, 7, 8])) = .ok i) ∧
    (∃ i, decode (.frame (List.replicate 12 7)) = .ok i) ∧
    (∃ i, decode (.command (zeroCommand 0b11)) = .ok i) := ⟨⟨_, rfl⟩, ⟨_, rfl⟩, ⟨_, rfl⟩, ⟨_, rfl⟩⟩

theorem witness_TagSelectsRecordFormat :
    (encodeMeasRecord 2 meas 0)[0] = 1 ∧ (ctrlRecord order 2)[0] = 2 ∧
    ((zeros 11)[0] ≠ 1 ∧ (zeros 11)[0] ≠ 2) ∧
    ((Vector.replicate 11 3 : Record)[0] ≠ 1 ∧ (Vector.replicate 11 3 : Record)[0] ≠ 2) := by decide

theorem witness_FrameIsAnyTwelveBytes :
    (List.replicate 11 (0 : Byte)).length ≠ 12 ∧ (List.replicate 13 (0 : Byte)).length ≠ 12 := by decide

theorem witness_OpSelectsCommand :
    (zeroCommand 0b00).op = 0b00 ∧ (zeroCommand 0b01).op = 0b01 ∧ (zeroCommand 0b10).op = 0b10 ∧
    (zeroCommand 0b11).op = 0b11 := by decide

theorem witness_BuildFrameExpandsByRecordType :
    (TypedFrame.mk 0 2 (.measurement meas)).payload = .measurement meas ∧
    (TypedFrame.mk 0 9 (.control order)).payload = .control order := ⟨rfl, rfl⟩

theorem witness_StepRunsDecodedCommand :
    (block .initialized false (.command (zeroCommand 0b11))).pending = .command (zeroCommand 0b11) :: [] ∧
    decode (.command (zeroCommand 0b11)) = .ok (.parse []) ∧ (Instr.parse []).wellFormed = true :=
  ⟨rfl, rfl, by simp [Instr.wellFormed]⟩

theorem witness_StepIdlesOrResets :
    ready.pending = [] ∧ (block .initialized true .reset).pending = .reset :: [] := ⟨rfl, rfl⟩

theorem witness_FetchedWordIsRun :
    (decodeTableWord 8 0b01 = some (.buildm ⟨0, 0, 0, 0⟩ 0 0) ∧ IsCommand (.buildm ⟨0, 0, 0, 0⟩ 0 0) = true) ∧
    (decodeTableWord 88 0x01FF8000FFFF0000FFFF00 = some (.recMeas 255 ⟨-32768, 65535, 0, -1⟩ 0) ∧
      IsCommand (.recMeas 255 ⟨-32768, 65535, 0, -1⟩ 0) = false) ∧
    (decodeTableWord 96 0 = some (.frame 0 (zeros 11)) ∧ IsCommand (.frame 0 (zeros 11)) = false) := by decide

/-- The last byte and the last pair of an 11-byte record are in range. -/
theorem witness_MemReadIsBigEndian : 10 + 1 ≤ 11 ∧ 9 + 2 ≤ 11 := by decide

theorem witness_MemWriteStoresExactlyItsBytes :
    (10 + 1 ≤ 11 ∧ 9 < 11 ∧ 9 ≠ 10) ∧ (9 + 2 ≤ 11 ∧ 8 < 11 ∧ 8 ≠ 9 ∧ 8 ≠ 9 + 1) := by decide

theorem witness_OrderPackingIsBijection : (3 : Nat) < 4 := by decide

/-- Two records that agree in byte 4 only. -/
theorem witness_ControlRecordRoundTrip :
    (ctrlRecord order 2)[4] = (encodeCtrlRecord 9 order #v[1, 2] #v[3, 4, 5, 6, 7, 8])[4] := by decide

/-- The last byte of a 20-byte buffer (block 1), and of a record. -/
theorem witness_KeystreamMeetsBufferInOrder : (19 : Nat) < 20 ∧ (10 : Nat) < 11 := by decide

theorem witness_NonceIsZeroButLastByte : nonce 255 = nonce 255 := rfl

theorem witness_StampWritesFirstTwoBytes :
    ((1 : Byte) = 1 ∨ (1 : Byte) = 2) ∧ ((2 : Byte) = 1 ∨ (2 : Byte) = 2) ∧ (2 ≤ 2 ∧ 2 < 11) ∧ (2 ≤ 10 ∧ 10 < 11) := by
  decide

theorem witness_NonceReuseLeaksPlaintextXor : ready.Initialized ∧ (0 : Nat) < 1 ∧ (10 : Nat) < 11 :=
  ⟨⟨rfl, rfl⟩, by decide, by decide⟩

theorem witness_InitStoresKey : State.reset.Uninitialized := ⟨rfl, rfl⟩

theorem witness_BuildmAnswersFrame : ready.Initialized := ⟨rfl, rfl⟩

theorem witness_BuildcAnswersFrame : ready.Initialized := ⟨rfl, rfl⟩

/-- A record's ciphertext under `ready`'s key, whatever the cipher, decrypts to the record's own tag. -/
theorem sealed_tag (r : Record) (seq : Byte) :
    (xform Config.E ready.key r (nonce seq))[0] ^^^ (Config.E ready.key (nonce seq))[0] = r[0] := by
  simp

theorem witness_ParseAnswersMeasurement : ready.Initialized ∧
    (xform Config.E ready.key (measRecord meas 2) (nonce 0))[0] ^^^ (Config.E ready.key (nonce 0))[0] = 1 :=
  ⟨⟨rfl, rfl⟩, by rw [sealed_tag]; decide⟩

theorem witness_ParseAnswersControl : ready.Initialized ∧
    (xform Config.E ready.key (ctrlRecord order 9) (nonce 255))[0] ^^^ (Config.E ready.key (nonce 255))[0] = 2 :=
  ⟨⟨rfl, rfl⟩, by rw [sealed_tag]; decide⟩

/-- Tags 0 and 3, on either side of the legal ones. -/
theorem witness_ParseRejectsUnknownTag : ready.Initialized ∧
    ((xform Config.E ready.key (zeros 11) (nonce 0))[0] ^^^ (Config.E ready.key (nonce 0))[0] ≠ 1 ∧
      (xform Config.E ready.key (zeros 11) (nonce 0))[0] ^^^ (Config.E ready.key (nonce 0))[0] ≠ 2) ∧
    ((xform Config.E ready.key (Vector.replicate 11 3) (nonce 0))[0] ^^^ (Config.E ready.key (nonce 0))[0] ≠ 1 ∧
      (xform Config.E ready.key (Vector.replicate 11 3) (nonce 0))[0] ^^^ (Config.E ready.key (nonce 0))[0] ≠ 2) := by
  refine ⟨⟨rfl, rfl⟩, ⟨?_, ?_⟩, ⟨?_, ?_⟩⟩ <;> rw [sealed_tag] <;> decide

theorem witness_ParseRejectsWrongLength :
    ready.Initialized ∧ ([] : List Byte).length ≠ 12 ∧ (List.replicate 11 (0 : Byte)).length ≠ 12 ∧
      (List.replicate 13 (0 : Byte)).length ≠ 12 := ⟨⟨rfl, rfl⟩, by decide, by decide, by decide⟩

theorem witness_ParseDispatchesThroughRows :
    ready.Initialized ∧ decode (.frame (List.replicate 12 7)) = .ok (.frame 7 (Vector.replicate 11 7)) :=
  ⟨⟨rfl, rfl⟩, by decide⟩

theorem witness_ViolationTakesFatalException :
    (IsCommand (.parse []) = true ∧ (block .initialized true .reset).fault = true) ∧
    (IsCommand (.init k0) = true ∧ IsInit (.init k0) = true ∧ ready.life = .initialized) ∧
    (IsCommand (.parse []) = true ∧ IsInit (.parse []) = false ∧ State.reset.life = .uninitialized) := by decide

/-- One command in each row and column of the table. -/
theorem witness_LifecycleTableHolds :
    (State.reset.Uninitialized ∧ IsInit (.init k0) = true ∧ ∃ t, exec (.init k0) State.reset = .next t) ∧
    (State.reset.Uninitialized ∧ IsInit (.parse []) = false ∧ ∃ t, exec (.parse []) State.reset = .next t) ∧
    (ready.Initialized ∧ IsInit (.init k0) = true ∧ ∃ t, exec (.init k0) ready = .next t) ∧
    (ready.Initialized ∧ IsInit (.buildm meas 2 0) = false ∧ ∃ t, exec (.buildm meas 2 0) ready = .next t) ∧
    ((block .initialized true .reset).Faulted ∧ ∃ t, exec (.buildc order 9 0) (block .initialized true .reset) = .next t) :=
  ⟨⟨⟨rfl, rfl⟩, rfl, _, rfl⟩, ⟨⟨rfl, rfl⟩, rfl, _, rfl⟩, ⟨⟨rfl, rfl⟩, rfl, _, rfl⟩, ⟨⟨rfl, rfl⟩, rfl, _, rfl⟩,
    ⟨rfl, _, rfl⟩⟩

theorem witness_InstructionFrame :
    (∃ t, exec (.frame 0 (zeros 11)) (block .initialized true .reset) = .next t) ∧
    (block .initialized true .reset).fault = true ∧ IsInit (.frame 0 (zeros 11)) = false ∧ ready.Initialized :=
  ⟨⟨_, rfl⟩, rfl, rfl, ⟨rfl, rfl⟩⟩

theorem witness_BuildsAndParsesCommute :
    ready.Initialized ∧ IsInit (.buildm meas 2 0) = false ∧ IsInit (.parse [1, 2, 3]) = false :=
  ⟨⟨rfl, rfl⟩, rfl, rfl⟩

theorem witness_MeasurementFrameRoundTrip :
    ready.Initialized ∧ { ready with responses := [.lengthError] }.Initialized ∧
      { ready with responses := [.lengthError] }.key = ready.key := ⟨⟨rfl, rfl⟩, ⟨rfl, rfl⟩, rfl⟩

theorem witness_ControlFrameRoundTrip :
    ready.Initialized ∧ { ready with responses := [.lengthError] }.Initialized ∧
      { ready with responses := [.lengthError] }.key = ready.key := ⟨⟨rfl, rfl⟩, ⟨rfl, rfl⟩, rfl⟩

/-- Under the stub, keys whose first bytes differ by FF, by 0 and by 3 give the three outcomes, for either type. -/
theorem witness_OtherKeyGivesTypeErrorOrValues :
    (1#8 ^^^ (stub k0 (nonce 0))[0] ^^^ (stub (k0.set 0 0xFF) (nonce 0))[0] ≠ 1 ∧
      1#8 ^^^ (stub k0 (nonce 0))[0] ^^^ (stub (k0.set 0 0xFF) (nonce 0))[0] ≠ 2) ∧
    1#8 ^^^ (stub k0 (nonce 0))[0] ^^^ (stub k0 (nonce 0))[0] = 1 ∧
    1#8 ^^^ (stub k0 (nonce 0))[0] ^^^ (stub (k0.set 0 3) (nonce 0))[0] = 2 ∧
    frameTag (frameTypeOf (.measurement meas)) = 1 ∧ frameTag (frameTypeOf (.control order)) = 2 ∧
    2#8 ^^^ (stub k0 (nonce 0))[0] ^^^ (stub (k0.set 0 0xFF) (nonce 0))[0] ≠ 1 ∧
    2#8 ^^^ (stub k0 (nonce 0))[0] ^^^ (stub (k0.set 0 0xFF) (nonce 0))[0] ≠ 2 ∧
    2#8 ^^^ (stub k0 (nonce 0))[0] ^^^ (stub k0 (nonce 0))[0] = 2 ∧
    2#8 ^^^ (stub k0 (nonce 0))[0] ^^^ (stub (k0.set 0 3) (nonce 0))[0] = 1 ∧
    (ready.life = .initialized ∧ ready.fault = false) ∧
    (readyOther.life = .initialized ∧ readyOther.fault = false) := by decide

theorem witness_FlippedBitsPassThrough :
    (10 : Nat) < 11 ∧ ready.Initialized ∧
    exec (.parse (0 :: (xform Config.E ready.key (measRecord meas 2) (nonce 0)).toList)) ready =
      .next { ready with responses := ready.responses ++ [.ok (.parsed 2 (.measurement meas))] } := by
  refine ⟨by decide, ⟨rfl, rfl⟩, ?_⟩
  rw [exec_initialized _ ready ⟨rfl, rfl⟩ rfl]
  obtain ⟨f, hf, h0, hc⟩ := frameOfData_cons 0 (xform Config.E ready.key (measRecord meas 2) (nonce 0))
  have hp : normalResponse (.parse (0 :: (xform Config.E ready.key (measRecord meas 2) (nonce 0)).toList)) ready =
      recordResponse (measRecord meas 2) := by
    simp only [normalResponse, parseData, hf, parseFrame, h0, hc, openRecord_xform]
  have hr : recordResponse (measRecord meas 2) = .ok (.parsed 2 (.measurement meas)) := by decide
  rw [hp, hr]
  rfl

/-- An Initialized block with two commands waiting, then a reset. -/
def busy : State := { ready with pending := [.command (zeroCommand 0b01), .command (zeroCommand 0b00), .reset] }

theorem witness_KeyStaysUntilReset :
    busy.life = .initialized ∧ .reset ∉ busy.pending.take 2 ∧ ∃ t, runFor 2 busy = .next t :=
  ⟨rfl, by decide, _, rfl⟩

theorem witness_FaultAnswersFatalUntilReset :
    { busy with fault := true }.fault = true ∧ 2 ≤ { busy with fault := true }.pending.length ∧
      .reset ∉ { busy with fault := true }.pending.take 2 := by decide

/-- Two Uninitialized blocks whose unset keys differ, with an INIT waiting. -/
theorem witness_UnsetKeyIsUnobservable :
    (block .uninitialized false (.command (zeroCommand 0b00))).AgreeButUnsetKey
      { block .uninitialized false (.command (zeroCommand 0b00)) with key := zeros 16 } ∧
    k0 ≠ zeros 16 ∧ ∃ t, step (block .uninitialized false (.command (zeroCommand 0b00))) = .next t :=
  ⟨⟨rfl, rfl, rfl, rfl, rfl, fun h => nomatch h⟩, by decide, _, rfl⟩

theorem witness_ResponsesAreNotState : ∃ t, step busy = .next t := ⟨_, rfl⟩

/-- A contract-keeping host: INIT, a build, a reset, INIT again. -/
def lawful : List HostEvent :=
  [.command (zeroCommand 0b00), .command (zeroCommand 0b01), .reset, .command (zeroCommand 0b00)]

theorem witness_StepKeepsContract :
    { State.reset with pending := lawful }.ContractInv ∧
    ∃ t, step { State.reset with pending := lawful } = .next t :=
  ⟨⟨rfl, by decide, by simp [State.reset]⟩, _, rfl⟩

theorem witness_StepKeepsFaultRecordAndInputs :
    (∃ t, step { busy with fault := true, responses := [.fatal] } = .next t) ∧
    { busy with fault := true, responses := [.fatal] }.FaultAnswered ∧
    { busy with fault := true, responses := [.fatal] }.InputsFit := by
  refine ⟨⟨_, rfl⟩, fun _ => by simp [State.FaultedRun], fun c hc => ?_⟩
  simp only [busy, List.mem_cons, HostEvent.command.injEq, List.not_mem_nil, or_false, reduceCtorEq] at hc
  rcases hc with rfl | rfl <;> rfl

theorem witness_ResetMeetsInvariants : ContractOk .uninitialized lawful = true := by decide

theorem witness_ContractRunIsNotFaulted : { State.reset with pending := lawful }.ContractInv :=
  ⟨rfl, by decide, by simp [State.reset]⟩

theorem witness_SequenceCounterAdvances :
    (1 : Nat) < (senderFrames ⟨255⟩ [(2, .measurement meas), (2, .control order)]).length := by decide

theorem witness_NonceSpaceExhaustsAfter256 : ready.Initialized ∧
    (List.replicate 257 ((2 : Byte), TypedRecord.measurement meas))[0]? = some (2, .measurement meas) ∧
    (List.replicate 257 ((2 : Byte), TypedRecord.measurement meas))[0 + 256]? = some (2, .measurement meas) ∧
    ((2, .control order) :: List.replicate 256 ((2 : Byte), TypedRecord.measurement meas))[0]? =
      some (2, .control order) ∧
    ((2, .control order) :: List.replicate 256 ((2 : Byte), TypedRecord.measurement meas))[0 + 256]? =
      some (2, .measurement meas) :=
  ⟨⟨rfl, rfl⟩, List.getElem?_replicate.trans (if_pos (by decide)), List.getElem?_replicate.trans (if_pos (by decide)),
    rfl, (List.getElem?_cons_succ).trans (List.getElem?_replicate.trans (if_pos (by decide)))⟩

theorem witness_NonceDutyHoldsForAtMost256 :
    NoNonceReuse [⟨0, 2, .measurement meas⟩, ⟨1, 2, .control order⟩] ∧
    [TypedFrame.mk 0 2 (.measurement meas), ⟨1, 2, .control order⟩].Nodup := by
  refine ⟨?_, by decide⟩
  unfold NoNonceReuse
  decide

end Sys2Proof.Tests
end

section
/-! PROOFS. The signed 16-bit images of spec/00_scope.md R11: `toU16` and `toS16` are mutually inverse, with the numeric
value of each. -/

namespace Sys2Proof.Machine

@[simp] theorem toS16_toU16 (x : S16) : toS16 (toU16 x) = x := Int16.ofBitVec_toBitVec x

@[simp] theorem toU16_toS16 (w : U16) : toU16 (toS16 w) = w := Int16.toBitVec_ofBitVec w

theorem toInt_toS16 (w : U16) :
    (toS16 w).toInt = if w.toNat < 32768 then (w.toNat : Int) else (w.toNat : Int) - 65536 := by
  have signed : (toS16 w).toInt =
      if 2 * w.toNat < 65536 then (w.toNat : Int) else (w.toNat : Int) - 65536 :=
    (Int16.toInt_ofBitVec w).trans (BitVec.toInt_eq_toNat_cond w)
  have half : 2 * w.toNat < 65536 ↔ w.toNat < 32768 := by omega
  simpa only [half] using signed

/-- Every signed value is the value of its own image, and either branch of `toInt_toS16` leaves the image modulo 65536. -/
theorem toNat_toU16 (x : S16) : ((toU16 x).toNat : Int) = x.toInt % 65536 := by
  have bound : (toU16 x).toNat < 65536 := (toU16 x).isLt
  have value := toInt_toS16 (toU16 x)
  rw [toS16_toU16] at value
  split at value <;> omega

/-- Settles O13: the two inverse laws and the two values. -/
theorem signedImagesAreInverse : Obligations.SignedImagesAreInverse :=
  ⟨fun x => ⟨toNat_toU16 x, toS16_toU16 x⟩, fun w => ⟨toU16_toS16 w, toInt_toS16 w⟩⟩

end Sys2Proof.Machine
end

section
/-! PROOFS. The block's own state (spec/10_state.md R13 to R19, R27, R28): what an instruction and a step write of KEY,
LIFE, FAULT and the two ports, what a run without a reset keeps, and what no step reads. -/

namespace Sys2Proof.Machine

/-! ### What an instruction writes -/

/-- `exec_cases` read from the next state. -/
theorem exec_next_cases {i : Instr} {s t : State} (h : exec i s = .next t) :
    (IsCommand i = true ∧ s.violates (IsInit i) = true ∧ t = s.fatal) ∨
      (∃ k, i = .init k ∧ s.Uninitialized ∧ t = (s.loadKey k).respond (.ok .none)) ∨
      (IsInit i = false ∧ (IsCommand i = true → s.Initialized) ∧ t = s.respond (normalResponse i s)) := by
  have target {u : State} (hu : exec i s = .next u) : t = u := Host.Outcome.next.inj (h.symm.trans hu)
  rcases exec_cases i s with ⟨hc, hv, hu⟩ | ⟨k, hk, hun, hu⟩ | ⟨hi, hin, hu⟩
  · exact .inl ⟨hc, hv, target hu⟩
  · exact .inr (.inl ⟨k, hk, hun, target hu⟩)
  · exact .inr (.inr ⟨hi, hin, target hu⟩)

theorem exec_keeps_pending_resets {i : Instr} {s t : State} (h : exec i s = .next t) :
    t.pending = s.pending ∧ t.resets = s.resets := by
  rcases exec_next_cases h with ⟨_, _, rfl⟩ | ⟨k, _, _, rfl⟩ | ⟨_, _, rfl⟩ <;> exact ⟨rfl, rfl⟩

theorem exec_appends_response {i : Instr} {s t : State} (h : exec i s = .next t) :
    ∃ r, t.responses = s.responses ++ [r] := by
  rcases exec_next_cases h with ⟨_, _, rfl⟩ | ⟨k, _, _, rfl⟩ | ⟨_, _, rfl⟩ <;> exact ⟨_, rfl⟩

/-- Only an INIT that meets its precondition writes KEY and LIFE (R14, R15). -/
theorem exec_keeps_key_life {i : Instr} {s t : State} (h : exec i s = .next t)
    (hn : IsInit i = false ∨ ¬ s.Uninitialized) : t.key = s.key ∧ t.life = s.life := by
  rcases exec_next_cases h with ⟨_, _, rfl⟩ | ⟨k, rfl, hu, rfl⟩ | ⟨_, _, rfl⟩
  · exact ⟨rfl, rfl⟩
  · rcases hn with hi | hn
    · cases hi
    · exact absurd hu hn
  · exact ⟨rfl, rfl⟩

/-- Only the fatal exception writes FAULT (R16, R154). -/
theorem exec_keeps_fault_or_fatal {i : Instr} {s t : State} (h : exec i s = .next t) :
    t.fault = s.fault ∨ t = s.fatal := by
  rcases exec_next_cases h with ⟨_, _, ht⟩ | ⟨k, _, _, rfl⟩ | ⟨_, _, rfl⟩
  · exact .inr ht
  · exact .inl rfl
  · exact .inl rfl

theorem exec_keeps_latched_fault {i : Instr} {s t : State} (h : exec i s = .next t) (hf : s.fault = true) :
    t.fault = true := by
  rcases exec_keeps_fault_or_fatal h with ht | rfl
  · exact ht.trans hf
  · rfl

theorem State.not_uninitialized_of_fault {s : State} (hf : s.fault = true) : ¬ s.Uninitialized :=
  fun hu => Bool.false_ne_true (hu.2.symm.trans hf)

theorem State.not_uninitialized_of_life {s : State} (hl : s.life = .initialized) : ¬ s.Uninitialized :=
  fun hu => nomatch hu.1.symm.trans hl

/-- Settles O35: each clause is one of the rules above, the last `exec_initialized`. -/
theorem instructionFrame : Obligations.InstructionFrame := by
  intro i s t h
  obtain ⟨hpending, hresets⟩ := exec_keeps_pending_resets h
  have hfault : t.fault = s.fault ∨ t.responses = s.responses ++ [.fatal] :=
    (exec_keeps_fault_or_fatal h).imp_right fun ht => congrArg State.responses ht
  refine ⟨hpending, hresets, fun hi => exec_keeps_key_life h (.inl hi), hfault,
    fun hf => exec_keeps_key_life h (.inr (State.not_uninitialized_of_fault hf)), fun hs hi => ?_⟩
  obtain rfl := Host.Outcome.next.inj (h.symm.trans (exec_initialized i s hs hi))
  rfl

/-! ### What a step keeps -/

/-- A step takes the first event that is pending, if there is one (R42). -/
theorem step_pending {s t : State} (h : step s = .next t) : t.pending = s.pending.tail := by
  rcases step_cases s t h with ⟨hp, rfl⟩ | ⟨rest, hp, rfl⟩ | ⟨c, rest, hp, he⟩
  · simp [hp]
  · simp [hp]
  · simp [hp, (exec_keeps_pending_resets he).1]

theorem step_keeps_inputsFit {s t : State} (h : step s = .next t) (hs : s.InputsFit) : t.InputsFit :=
  fun c hc => hs c (List.mem_of_mem_tail (step_pending h ▸ hc))

theorem exec_keeps_faultAnswered {i : Instr} {s t : State} (h : exec i s = .next t) (hs : s.FaultAnswered) :
    t.FaultAnswered := by
  intro hf
  rcases exec_keeps_fault_or_fatal h with hsame | rfl
  · obtain ⟨r, hr⟩ := exec_appends_response h
    have earlier : s.FaultedRun := hs (hsame.symm.trans hf)
    rw [State.FaultedRun, hr]
    exact List.mem_append_left [r] earlier
  · exact List.mem_append_right s.responses (List.mem_singleton_self _)

theorem step_keeps_faultAnswered {s t : State} (h : step s = .next t) (hs : s.FaultAnswered) :
    t.FaultAnswered := by
  rcases step_cases s t h with ⟨_, rfl⟩ | ⟨rest, _, rfl⟩ | ⟨c, rest, _, he⟩
  · exact hs
  · exact fun hf => nomatch hf
  · exact exec_keeps_faultAnswered he hs

/-- Settles O47. -/
theorem stepKeepsFaultRecordAndInputs : Obligations.StepKeepsFaultRecordAndInputs :=
  fun _ _ h => ⟨step_keeps_faultAnswered h, step_keeps_inputsFit h⟩

/-! ### What a run without a reset keeps -/

/-- A predicate that every step but a reset keeps holds at the end of a run that takes no reset. -/
theorem runFor_keeps_of_no_reset {P : State → Prop}
    (hstep : ∀ s t, .reset ∉ s.pending.take 1 → step s = .next t → P s → P t) :
    ∀ (n : Nat) (s t : State), .reset ∉ s.pending.take n → runFor n s = .next t → P s → P t := by
  intro n
  induction n with
  | zero =>
    intro s t _ hrun hs
    exact Host.Outcome.next.inj hrun ▸ hs
  | succ n ih =>
    intro s t hno hrun hs
    cases hu : step s with
    | next u =>
      have first : .reset ∉ s.pending.take 1 :=
        fun hmem => hno (List.take_subset_take_left _ (Nat.le_add_left 1 n) hmem)
      have others : .reset ∉ u.pending.take n := by
        rw [step_pending hu]
        intro hmem
        rw [← List.drop_one, List.take_drop] at hmem
        exact hno (by simpa [Nat.add_comm] using List.mem_of_mem_drop hmem)
      exact ih u t others (runFor_succ n s u hu ▸ hrun) (hstep s u first hu hs)
    | fault r => simp [runFor, hu] at hrun
    | refused r => simp [runFor, hu] at hrun

/-- KEY is `k`, LIFE is Initialized, and FAULT is latched if it was (R14, R16). -/
def State.HoldsKey (k : Key) (faulted : Bool) (s : State) : Prop :=
  s.key = k ∧ s.life = .initialized ∧ (faulted = true → s.fault = true)

theorem step_keeps_holdsKey {k : Key} {faulted : Bool} (s t : State) (hno : .reset ∉ s.pending.take 1)
    (h : step s = .next t) (hs : s.HoldsKey k faulted) : t.HoldsKey k faulted := by
  obtain ⟨hkey, hlife, hfault⟩ := hs
  rcases step_cases s t h with ⟨_, rfl⟩ | ⟨rest, hp, _⟩ | ⟨c, rest, _, he⟩
  · exact ⟨hkey, hlife, hfault⟩
  · simp [hp] at hno
  · obtain ⟨hk, hl⟩ := exec_keeps_key_life he (.inr (State.not_uninitialized_of_life hlife))
    exact ⟨hk.trans hkey, hl.trans hlife, fun hf => exec_keeps_latched_fault he (hfault hf)⟩

/-- Settles O42: `HoldsKey` for the start's own KEY and FAULT, over the run. -/
theorem keyStaysUntilReset : Obligations.KeyStaysUntilReset :=
  fun n s t hlife hno hrun =>
    runFor_keeps_of_no_reset (P := State.HoldsKey s.key s.fault) step_keeps_holdsKey n s t hno hrun
      ⟨rfl, hlife, id⟩

/-! ### The branch an instruction takes, from its precondition -/

theorem exec_violation {i : Instr} {s : State} (hc : IsCommand i = true) (hv : s.violates (IsInit i) = true) :
    exec i s = .next s.fatal := by
  rcases exec_cases i s with ⟨_, _, h⟩ | ⟨k, rfl, hu, _⟩ | ⟨hi, hs, _⟩
  · exact h
  · simp [IsInit, s.violates_init.2 hu] at hv
  · simp [hi, s.violates_other.2 (hs hc)] at hv

theorem exec_init_uninitialized (k : Key) {s : State} (hu : s.Uninitialized) :
    exec (.init k) s = .next ((s.loadKey k).respond (.ok .none)) :=
  congrArg _ (s.guarded_passes true _ (s.violates_init.2 hu))

/-! ### No step reads the responses -/

/-- The state with responses given before its own. -/
def State.withEarlier (earlier : List Response) (s : State) : State :=
  { s with responses := earlier ++ s.responses }

theorem State.respond_withEarlier (earlier : List Response) (s : State) (r : Response) :
    (s.withEarlier earlier).respond r = (s.respond r).withEarlier earlier := by
  simp [State.withEarlier, State.respond]

theorem State.fatal_withEarlier (earlier : List Response) (s : State) :
    (s.withEarlier earlier).fatal = s.fatal.withEarlier earlier :=
  State.respond_withEarlier earlier { s with fault := true } .fatal

theorem exec_withEarlier {i : Instr} {s t : State} (earlier : List Response) (hc : IsCommand i = true)
    (h : exec i s = .next t) : exec i (s.withEarlier earlier) = .next (t.withEarlier earlier) := by
  rcases exec_next_cases h with ⟨_, hv, rfl⟩ | ⟨k, rfl, hu, rfl⟩ | ⟨hi, hs, rfl⟩
  · rw [← State.fatal_withEarlier]
    exact exec_violation hc hv
  · rw [← State.respond_withEarlier]
    exact exec_init_uninitialized k hu
  · rw [← State.respond_withEarlier, normalResponse_key i s (s.withEarlier earlier) rfl]
    exact exec_initialized i (s.withEarlier earlier) (hs hc) hi

/-- Settles O45: the same branch of the step is taken, and each answers by appending. -/
theorem responsesAreNotState : Obligations.ResponsesAreNotState := by
  intro s t earlier h
  rcases step_cases s t h with ⟨hp, rfl⟩ | ⟨rest, hp, rfl⟩ | ⟨c, rest, hp, he⟩
  · exact step_idle (t.withEarlier earlier) hp
  · exact step_reset (s.withEarlier earlier) rest hp
  · exact (step_command (s.withEarlier earlier) c rest hp).trans
      (exec_withEarlier earlier (isCommand_decodeCommand c) he)

/-! ### No step reads an unset KEY -/

namespace State.AgreeButUnsetKey

variable {s t : State}

theorem violates (h : s.AgreeButUnsetKey t) (isInit : Bool) : t.violates isInit = s.violates isInit := by
  obtain ⟨hlife, hfault, _⟩ := h
  simp [State.violates, hlife, hfault]

theorem uninitialized (h : s.AgreeButUnsetKey t) (hs : s.Uninitialized) : t.Uninitialized :=
  t.violates_init.1 ((h.violates true).trans (s.violates_init.2 hs))

theorem initialized (h : s.AgreeButUnsetKey t) (hs : s.Initialized) : t.Initialized :=
  t.violates_other.1 ((h.violates false).trans (s.violates_other.2 hs))

theorem pending_eq (h : s.AgreeButUnsetKey t) : s.pending = t.pending := by
  obtain ⟨_, _, hpending, _⟩ := h
  exact hpending

theorem key_eq (h : s.AgreeButUnsetKey t) (hs : s.Initialized) : s.key = t.key := by
  obtain ⟨_, _, _, _, _, hkey⟩ := h
  exact hkey hs.1

theorem takeEvent (h : s.AgreeButUnsetKey t) (rest : List HostEvent) :
    { s with pending := rest }.AgreeButUnsetKey { t with pending := rest } := by
  obtain ⟨hlife, hfault, _, hresponses, hresets, hkey⟩ := h
  exact ⟨hlife, hfault, rfl, hresponses, hresets, hkey⟩

theorem respond (h : s.AgreeButUnsetKey t) (r : Response) : (s.respond r).AgreeButUnsetKey (t.respond r) := by
  obtain ⟨hlife, hfault, hpending, hresponses, hresets, hkey⟩ := h
  exact ⟨hlife, hfault, hpending, congrArg (· ++ [r]) hresponses, hresets, hkey⟩

theorem fatal (h : s.AgreeButUnsetKey t) : s.fatal.AgreeButUnsetKey t.fatal := by
  obtain ⟨hlife, _, hpending, hresponses, hresets, hkey⟩ := h
  have latched : { s with fault := true }.AgreeButUnsetKey { t with fault := true } :=
    ⟨hlife, rfl, hpending, hresponses, hresets, hkey⟩
  exact latched.respond .fatal

/-- INIT makes the two keys equal as it makes KEY visible (R130). -/
theorem loadKey (h : s.AgreeButUnsetKey t) (k : Key) : (s.loadKey k).AgreeButUnsetKey (t.loadKey k) := by
  obtain ⟨_, hfault, hpending, hresponses, hresets, _⟩ := h
  exact ⟨rfl, hfault, hpending, hresponses, hresets, fun _ => rfl⟩

/-- Whatever KEY a reset leaves, it is unset again (D13). -/
theorem resetEvent (h : s.AgreeButUnsetKey t) : s.resetEvent.AgreeButUnsetKey t.resetEvent := by
  obtain ⟨_, _, hpending, hresponses, hresets, _⟩ := h
  exact ⟨rfl, rfl, hpending, hresponses, congrArg (· + 1) hresets, fun hl => nomatch hl⟩

end State.AgreeButUnsetKey

/-- PRECHECK stops every command but INIT while KEY is unset, and INIT reads no KEY. -/
theorem exec_keeps_agreement {i : Instr} {s t s' : State} (hc : IsCommand i = true) (hst : s.AgreeButUnsetKey t)
    (h : exec i s = .next s') : ∃ t', exec i t = .next t' ∧ s'.AgreeButUnsetKey t' := by
  rcases exec_next_cases h with ⟨_, hv, rfl⟩ | ⟨k, rfl, hu, rfl⟩ | ⟨hi, hs, rfl⟩
  · exact ⟨_, exec_violation hc ((hst.violates _).trans hv), hst.fatal⟩
  · exact ⟨_, exec_init_uninitialized k (hst.uninitialized hu), (hst.loadKey k).respond _⟩
  · rw [normalResponse_key i s t (hst.key_eq (hs hc))]
    exact ⟨_, exec_initialized i t (hst.initialized (hs hc)) hi, hst.respond _⟩

/-- Settles O44: the two states take the same branch of the step. -/
theorem unsetKeyIsUnobservable : Obligations.UnsetKeyIsUnobservable := by
  intro s t s' hst h
  have hpending := hst.pending_eq
  rcases step_cases s s' h with ⟨hp, rfl⟩ | ⟨rest, hp, rfl⟩ | ⟨c, rest, hp, he⟩
  · exact ⟨t, step_idle t (hpending ▸ hp), hst⟩
  · exact ⟨_, step_reset t rest (hpending ▸ hp), (hst.takeEvent rest).resetEvent⟩
  · rw [step_command t c rest (hpending ▸ hp)]
    exact exec_keeps_agreement (isCommand_decodeCommand c) (hst.takeEvent rest) he

end Sys2Proof.Machine
end

section
/-! PROOFS. Buffers and the order of commands (spec/20_memory.md R34, R35, R42, R43): what a buffer holds after a write and
what a read of it gives, what a step makes of the command it takes, and that build and parse commands commute. -/

namespace Sys2Proof.Machine

/-! ### Reading a buffer -/

@[simp] theorem memRead8_eq {L : Nat} (buf : Vector Byte L) (off : Nat) (h : off + 1 ≤ L) :
    memRead8 buf off h = buf[off] := rfl

theorem memRead16_toNat {L : Nat} (buf : Vector Byte L) (off : Nat) (h : off + 2 ≤ L) :
    (memRead16 buf off h).toNat = buf[off].toNat * 256 + buf[off + 1].toNat :=
  join_toNat buf[off] buf[off + 1]

/-- Settles O11. -/
theorem memReadIsBigEndian : Obligations.MemReadIsBigEndian :=
  fun _ buf off => ⟨memRead8_eq buf off, memRead16_toNat buf off⟩

/-! ### Writing a buffer -/

theorem highByte_toNat (v : U16) : (highByte v).toNat = v.toNat / 256 := by
  have bound := u16_toNat_lt v
  rw [highByte, BitVec.extractLsb'_toNat, Nat.shiftRight_eq_div_pow]
  omega

theorem lowByte_toNat (v : U16) : (lowByte v).toNat = v.toNat % 256 := BitVec.extractLsb'_toNat 0 8 v

section
variable {L : Nat} (buf : Vector Byte L) (off : Nat)

@[simp] theorem memWrite8_getElem_self (v : Byte) (h : off + 1 ≤ L) : (memWrite8 buf off v h)[off] = v :=
  Vector.getElem_set_self _

theorem memWrite8_getElem_ne (v : Byte) (h : off + 1 ≤ L) (k : Nat) (hk : k < L) (hne : k ≠ off) :
    (memWrite8 buf off v h)[k] = buf[k] :=
  Vector.getElem_set_ne _ _ hne.symm

/-- The second store, at the next offset, leaves the first byte (R35). -/
@[simp] theorem memWrite16_getElem_self (v : U16) (h : off + 2 ≤ L) :
    (memWrite16 buf off v h)[off] = highByte v :=
  (Vector.getElem_set_ne _ _ (Nat.succ_ne_self off)).trans (Vector.getElem_set_self _)

@[simp] theorem memWrite16_getElem_succ (v : U16) (h : off + 2 ≤ L) :
    (memWrite16 buf off v h)[off + 1] = lowByte v :=
  Vector.getElem_set_self _

theorem memWrite16_getElem_ne (v : U16) (h : off + 2 ≤ L) (k : Nat) (hk : k < L) (hhigh : k ≠ off)
    (hlow : k ≠ off + 1) : (memWrite16 buf off v h)[k] = buf[k] :=
  (Vector.getElem_set_ne _ _ hlow.symm).trans (Vector.getElem_set_ne _ _ hhigh.symm)

theorem memRead16_memWrite16 (v : U16) (h : off + 2 ≤ L) : memRead16 (memWrite16 buf off v h) off h = v := by
  rw [memRead16, memWrite16_getElem_self, memWrite16_getElem_succ]
  exact join_split v

end

/-- Settles O12: each clause is one of the rules above. -/
theorem memWriteStoresExactlyItsBytes : Obligations.MemWriteStoresExactlyItsBytes := by
  refine fun L buf off => ⟨fun v h => ⟨?_, ?_, ?_⟩, fun v h => ⟨?_, ?_, ?_, ?_⟩⟩
  · exact memWrite8_getElem_self buf off v h
  · rw [memRead8_eq, memWrite8_getElem_self]
  · exact memWrite8_getElem_ne buf off v h
  · rw [memWrite16_getElem_self, highByte_toNat]
  · rw [memWrite16_getElem_succ, lowByte_toNat]
  · exact memRead16_memWrite16 buf off v h
  · exact memWrite16_getElem_ne buf off v h

/-! ### The command a step takes -/

/-- Settles O8: the decoder of a command cannot fail, and `step_command` runs what it gives. -/
theorem stepRunsDecodedCommand : Obligations.StepRunsDecodedCommand := by
  intro s c rest i hpending hdecode _
  have decoded : decodeCommand c = i := Except.ok.inj hdecode
  rw [step_command s c rest hpending, decoded]

/-! ### Build and parse commands commute -/

/-- An earlier response changes neither what an instruction answers nor that it only answers (R19). -/
theorem exec_respond_initialized {s : State} {i : Instr} (hs : s.Initialized) (hi : IsInit i = false) (r : Response) :
    exec i (s.respond r) = .next { s with responses := s.responses ++ [r, normalResponse i s] } := by
  have responded : (s.respond r).Initialized := hs
  rw [exec_initialized i (s.respond r) responded hi, normalResponse_key i (s.respond r) s rfl]
  simp [State.respond]

/-- Settles O36: each answers from KEY alone, which neither writes. -/
theorem buildsAndParsesCommute : Obligations.BuildsAndParsesCommute := fun s i j hs hi hj =>
  ⟨normalResponse i s, normalResponse j s,
    exec_initialized i s hs hi, exec_respond_initialized hs hj _,
    exec_initialized j s hs hj, exec_respond_initialized hs hi _⟩

end Sys2Proof.Machine
end

section
/-! PROOFS. Decoding and encoding (spec/30_encoding.md R51 to R72): what each format decodes to, once per `op`, tag and
length; that the byte layouts of R53, R54 and R59 are undone by their decodes and the other way round; and the nonce
block of R61. -/

namespace Sys2Proof.Machine

/-! ### The packed order byte (R59, R60) -/

theorem unpackOrder_getElem (b : Byte) (i : Nat) (h : i < 4) :
    (unpackOrder b)[i] = kindOfCode (b.extractLsb' (2 * i) 2) := by
  simp [unpackOrder]

/-- Of four 2-bit codes joined, slot 0 last, slot `i` stands at bits `2i+1 : 2i`. -/
theorem extractLsb'_join_codes (c3 c2 c1 c0 : BitVec 2) :
    (c3 ++ c2 ++ c1 ++ c0 : Byte).extractLsb' 0 2 = c0 ∧ (c3 ++ c2 ++ c1 ++ c0 : Byte).extractLsb' 2 2 = c1 ∧
    (c3 ++ c2 ++ c1 ++ c0 : Byte).extractLsb' 4 2 = c2 ∧ (c3 ++ c2 ++ c1 ++ c0 : Byte).extractLsb' 6 2 = c3 := by
  revert c3 c2 c1 c0
  decide

theorem join_codes_extractLsb' (b : Byte) :
    (b.extractLsb' 6 2 ++ b.extractLsb' 4 2 ++ b.extractLsb' 2 2 ++ b.extractLsb' 0 2 : Byte) = b := by
  revert b
  decide

@[simp] theorem unpackOrder_packOrder (order : Order) : unpackOrder (packOrder order) = order := by
  obtain ⟨slot0, slot1, slot2, slot3⟩ :=
    extractLsb'_join_codes (kindCode order[3]) (kindCode order[2]) (kindCode order[1]) (kindCode order[0])
  refine Vector.ext fun i hi => ?_
  rw [unpackOrder_getElem, ← kindOfCode_kindCode order[i]]
  match i, hi with
  | 0, _ => exact congrArg kindOfCode slot0
  | 1, _ => exact congrArg kindOfCode slot1
  | 2, _ => exact congrArg kindOfCode slot2
  | 3, _ => exact congrArg kindOfCode slot3

@[simp] theorem packOrder_unpackOrder (b : Byte) : packOrder (unpackOrder b) = b := by
  simp only [packOrder, unpackOrder_getElem, kindCode_kindOfCode]
  exact join_codes_extractLsb' b

/-! ### Commands (R63, R64, R72) -/

theorem decode_command_init {c : Command} (h : c.op = 0b00) : decode (.command c) = .ok (.init c.key) := by
  simp [decode, decodeCommand, h]

theorem decode_command_buildm {c : Command} (h : c.op = 0b01) :
    decode (.command c) = .ok (.buildm c.measurement c.deviceId c.sequenceNumber) := by
  simp [decode, decodeCommand, h]

theorem decode_command_buildc {c : Command} (h : c.op = 0b10) :
    decode (.command c) = .ok (.buildc c.order c.deviceId c.sequenceNumber) := by
  simp [decode, decodeCommand, h]

theorem decode_command_parse {c : Command} (h : c.op = 0b11) : decode (.command c) = .ok (.parse c.data) := by
  simp [decode, decodeCommand, h]

/-- D2 numbers four commands, so a 2-bit `op` has no value left over. -/
theorem op_cases (op : BitVec 2) : op = 0b00 ∨ op = 0b01 ∨ op = 0b10 ∨ op = 0b11 := by
  revert op
  decide

theorem encode_of_decode_command_op {c : Command} {i : Instr} (h : decode (.command c) = .ok i) :
    ∃ c', encode i = .command c' ∧ c'.op = c.op := by
  rcases op_cases c.op with hop | hop | hop | hop
  · obtain rfl := Except.ok.inj (h.symm.trans (decode_command_init hop))
    exact ⟨_, rfl, hop.symm⟩
  · obtain rfl := Except.ok.inj (h.symm.trans (decode_command_buildm hop))
    exact ⟨_, rfl, hop.symm⟩
  · obtain rfl := Except.ok.inj (h.symm.trans (decode_command_buildc hop))
    exact ⟨_, rfl, hop.symm⟩
  · obtain rfl := Except.ok.inj (h.symm.trans (decode_command_parse hop))
    exact ⟨_, rfl, hop.symm⟩

/-! ### Records (R53, R54, R56, R66) -/

theorem decode_record_meas {r : Record} (h : r[0] = 1) :
    decode (.record r) = .ok (.recMeas r[1] (decMeas r) r[10]) := if_pos h

theorem decode_record_ctrl {r : Record} (h : r[0] = 2) :
    decode (.record r) = .ok (.recCtrl r[1] (decCtrl r) (ctrlUnusedHi r) (ctrlUnusedLo r)) := by
  have notMeas : r[0] ≠ 1 := by rw [h]; decide
  exact (if_neg notMeas).trans (if_pos h)

theorem decode_record_unknown {r : Record} (h1 : r[0] ≠ 1) (h2 : r[0] ≠ 2) :
    decode (.record r) = .error .unknownTag := (if_neg h1).trans (if_neg h2)

/-- DEC_MEAS reads each field where format M puts it, high byte first (R53, R32). -/
theorem decMeas_encodeMeasRecord (deviceId : DeviceId) (m : Measurement) (pad : Byte) :
    decMeas (encodeMeasRecord deviceId m pad) = m := by
  have fields : decMeas (encodeMeasRecord deviceId m pad) =
      ⟨toS16 (highByte (toU16 m.temperature) ++ lowByte (toU16 m.temperature)),
        highByte m.humidity ++ lowByte m.humidity, highByte m.pressure ++ lowByte m.pressure,
        toS16 (highByte (toU16 m.illuminance) ++ lowByte (toU16 m.illuminance))⟩ := rfl
  simp only [fields, highByte, lowByte, join_split, toS16_toU16]

theorem encodeMeasRecord_decMeas {r : Record} (h : r[0] = 1) : encodeMeasRecord r[1] (decMeas r) r[10] = r := by
  conv_rhs => rw [record_eta r, h]
  simp only [encodeMeasRecord, decMeas, memRead16, toU16_toS16, highByte, lowByte, highByte_join, lowByte_join]

section
variable (deviceId : DeviceId) (order : Order) (hi : Vector Byte Config.ctrlBytesBefore)
  (lo : Vector Byte Config.ctrlBytesAfter)

theorem encodeCtrlRecord_tag : (encodeCtrlRecord deviceId order hi lo)[0] = 2 := by
  rw [encodeCtrlRecord_eq]
  rfl

theorem encodeCtrlRecord_deviceId : (encodeCtrlRecord deviceId order hi lo)[1] = deviceId := by
  rw [encodeCtrlRecord_eq]
  rfl

/-- DEC_CTRL reads the order byte where format C puts it (R54, D8). -/
theorem decCtrl_encodeCtrlRecord : decCtrl (encodeCtrlRecord deviceId order hi lo) = order := by
  rw [encodeCtrlRecord_eq]
  exact unpackOrder_packOrder order

theorem ctrlUnusedHi_encodeCtrlRecord : ctrlUnusedHi (encodeCtrlRecord deviceId order hi lo) = hi := by
  rw [encodeCtrlRecord_eq]
  refine Vector.ext fun i h => ?_
  match i, h with
  | 0, _ | 1, _ => rfl

theorem ctrlUnusedLo_encodeCtrlRecord : ctrlUnusedLo (encodeCtrlRecord deviceId order hi lo) = lo := by
  rw [encodeCtrlRecord_eq]
  refine Vector.ext fun i h => ?_
  match i, h with
  | 0, _ | 1, _ | 2, _ | 3, _ | 4, _ | 5, _ => rfl

end

theorem encodeCtrlRecord_decCtrl {r : Record} (h : r[0] = 2) :
    encodeCtrlRecord r[1] (decCtrl r) (ctrlUnusedHi r) (ctrlUnusedLo r) = r := by
  have orderByte : packOrder (decCtrl r) = r[4] := packOrder_unpackOrder r[4]
  conv_rhs => rw [record_eta r, h]
  rw [encodeCtrlRecord_eq, orderByte]
  rfl

theorem encode_of_decode_record {r : Record} {i : Instr} (h : decode (.record r) = .ok i) :
    encode i = .record r := by
  by_cases h1 : r[0] = 1
  · obtain rfl := Except.ok.inj (h.symm.trans (decode_record_meas h1))
    exact congrArg Encoded.record (encodeMeasRecord_decMeas h1)
  · by_cases h2 : r[0] = 2
    · obtain rfl := Except.ok.inj (h.symm.trans (decode_record_ctrl h2))
      exact congrArg Encoded.record (encodeCtrlRecord_decCtrl h2)
    · exact nomatch h.symm.trans (decode_record_unknown h1 h2)

/-! ### Frames (R51, R69) -/

theorem decode_frame_toList (f : Frame) : decode (.frame f.toList) = .ok (.frame f[0] (frameCiphertext f)) := by
  simp only [decode, decodeFrame, frameOfData_toList]

theorem decode_frame_cons (seq : SequenceNumber) (ct : Ciphertext) :
    decode (.frame (seq :: ct.toList)) = .ok (.frame seq ct) := by
  obtain ⟨f, hf, rfl, rfl⟩ := frameOfData_cons seq ct
  simp only [decode, decodeFrame, hf]

theorem decode_frame_wrongLength {data : List Byte} (h : data.length ≠ 12) :
    decode (.frame data) = .error .wrongLength := by
  simp only [decode, decodeFrame, frameOfData_none data h]

theorem cons_frameCiphertext (f : Frame) : f[0] :: (frameCiphertext f).toList = f.toList := by
  refine List.ext_getElem (by simp) fun i _ _ => ?_
  cases i with
  | zero => rfl
  | succ j => simp only [List.getElem_cons_succ, Vector.getElem_toList, frameCiphertext_getElem]

theorem encode_of_decode_frame {data : List Byte} {i : Instr} (h : decode (.frame data) = .ok i) :
    encode i = .frame data := by
  by_cases hlen : data.length = 12
  · obtain ⟨f, _, rfl⟩ := frameOfData_of_length data hlen
    obtain rfl := Except.ok.inj (h.symm.trans (decode_frame_toList f))
    exact congrArg Encoded.frame (cons_frameCiphertext f)
  · exact nomatch h.symm.trans (decode_frame_wrongLength hlen)

/-! ### The statements on the decoder and the encoder -/

/-- Settles O2: by format, the decode of each from its `op`, tag or length, whose fields are read back where the encoder
puts them. -/
theorem decodeOfEncodeIsIdentity : Obligations.DecodeOfEncodeIsIdentity := by
  intro i
  cases i with
  | init key => exact decode_command_init rfl
  | buildm m deviceId seq => exact decode_command_buildm rfl
  | buildc order deviceId seq => exact decode_command_buildc rfl
  | parse data => exact decode_command_parse rfl
  | recMeas deviceId m pad =>
    have tag : (encodeMeasRecord deviceId m pad)[0] = 1 := rfl
    rw [encode, decode_record_meas tag, decMeas_encodeMeasRecord]
    rfl
  | recCtrl deviceId order hi lo =>
    have tag : (encodeCtrlRecord deviceId order hi lo)[0] = 2 := encodeCtrlRecord_tag deviceId order hi lo
    rw [encode, decode_record_ctrl tag, encodeCtrlRecord_deviceId, decCtrl_encodeCtrlRecord,
      ctrlUnusedHi_encodeCtrlRecord, ctrlUnusedLo_encodeCtrlRecord]
  | frame seq ct => exact decode_frame_cons seq ct

/-- Settles O3. -/
theorem encodeOfDecodedKeepsEveryBit : Obligations.EncodeOfDecodedKeepsEveryBit :=
  ⟨fun _ _ => encode_of_decode_record, fun _ _ => encode_of_decode_frame, fun _ _ => encode_of_decode_command_op⟩

/-- Settles O4: DEC_MEAS and the unused bytes are at their offsets by definition, and the order is the one that packs to
byte 4. -/
theorem tagSelectsRecordFormat : Obligations.TagSelectsRecordFormat :=
  fun r => ⟨decode_record_meas, fun h => ⟨decCtrl r, decode_record_ctrl h, packOrder_unpackOrder r[4]⟩,
    decode_record_unknown⟩

/-- Settles O5. -/
theorem frameIsAnyTwelveBytes : Obligations.FrameIsAnyTwelveBytes :=
  ⟨decode_frame_toList, fun _ => decode_frame_wrongLength⟩

/-- Settles O6. -/
theorem opSelectsCommand : Obligations.OpSelectsCommand :=
  fun _ => ⟨decode_command_init, decode_command_buildm, decode_command_buildc, decode_command_parse⟩

/-- Settles O7. -/
theorem buildFrameExpandsByRecordType : Obligations.BuildFrameExpandsByRecordType := by
  rintro ⟨seq, deviceId, payload⟩
  constructor
  · rintro m rfl
    exact decode_command_buildm rfl
  · rintro order rfl
    exact decode_command_buildc rfl

/-- Settles O1: the three rejections by the rules above, the accepted words by evaluation. -/
theorem specWordsDecode : Obligations.SpecWordsDecode := by
  refine ⟨by decide, by decide, by decide, by decide, by decide, by decide, ?_, ?_, ?_, ?_⟩
  · exact decode_record_unknown (by decide) (by decide)
  · exact decode_record_unknown (by decide) (by decide)
  · exact decode_frame_cons 0x2A #v[1, 2, 3, 4, 5, 6, 7, 8, 9, 10, 11]
  · exact decode_frame_wrongLength (by decide)

/-! ### The nonce block (R61) -/

theorem nonce_eq (s : SequenceNumber) : nonce s = #v[0, 0, 0, 0, 0, 0, 0, 0, 0, 0, 0, 0, 0, 0, 0, s] := rfl

/-- The last byte tells the sequence number. -/
theorem nonce_injective : Function.Injective nonce := by
  intro s s' h
  have last : (nonce s)[15] = (nonce s')[15] := congrArg (·[15]) h
  simpa [nonce_getElem] using last

/-- Settles O20. -/
theorem nonceIsZeroButLastByte : Obligations.NonceIsZeroButLastByte := ⟨nonce_eq, nonce_injective⟩

end Sys2Proof.Machine
end

section
/-! PROOFS. The Cipher Engine (spec/40_cipher_engine.md R81 to R88): which keystream byte XFORM applies, and what follows
from its being XOR with bytes that do not depend on the buffer. -/

namespace Sys2Proof.Machine

/-! ### The transform, byte by byte (R82, R88) -/

/-- A record ends inside keystream block 0, which the counter's advance does not touch (R88). -/
theorem xform_getElem_of_lt_blockBytes {L : Nat} (E : Cipher) (key : Key) (buf : Vector Byte L) (nb : Block) (i : Nat)
    (h : i < L) (hblock : i < 16) : (xform E key buf nb)[i] = buf[i] ^^^ (E key nb)[i] := by
  have block0 : i / 16 = 0 := Nat.div_eq_of_lt hblock
  have place : i % 16 = i := Nat.mod_eq_of_lt hblock
  simp only [xform_getElem, block0, place, ksBlock_zero]

/-- Settles O18. -/
theorem keystreamMeetsBufferInOrder : Obligations.KeystreamMeetsBufferInOrder :=
  ⟨fun E key _ buf nb i h => xform_getElem E key buf nb i h,
    fun E key r nb i h => xform_getElem_of_lt_blockBytes E key r nb i h (Nat.lt_trans h (by decide))⟩

/-! ### One keystream, twice (R83, R87) -/

/-- The keystream byte does not depend on the buffer, so it cancels with itself (R83). -/
theorem xform_xform {L : Nat} (E : Cipher) (key : Key) (buf : Vector Byte L) (nb : Block) :
    xform E key (xform E key buf nb) nb = buf := by
  refine Vector.ext fun i h => ?_
  rw [xform_getElem, xform_getElem, BitVec.xor_assoc, BitVec.xor_self, BitVec.xor_zero]

/-- Settles O17. -/
theorem transformIsItsOwnInverse : Obligations.TransformIsItsOwnInverse :=
  fun E key _ buf nb => xform_xform E key buf nb

/-- The keystream byte of one key and nonce block cancels between two buffers (R87). -/
theorem xform_xor_xform {L : Nat} (E : Cipher) (key : Key) (p q : Vector Byte L) (nb : Block) (i : Nat) (h : i < L) :
    (xform E key p nb)[i] ^^^ (xform E key q nb)[i] = p[i] ^^^ q[i] := by
  rw [xform_getElem, xform_getElem, BitVec.xor_comm q[i], BitVec.xor_assoc, ← BitVec.xor_assoc _ _ q[i],
    BitVec.xor_self, BitVec.zero_xor]

/-- One sequence number is one nonce block, so its frames share their keystream (R175). -/
theorem sealRecord_xor_sealRecord (E : Cipher) (key : Key) (r r' : Record) (seq : SequenceNumber) (i : Nat)
    (h : i < 11) :
    (sealRecord E key r seq)[i + 1]'(Nat.succ_lt_succ h) ^^^ (sealRecord E key r' seq)[i + 1]'(Nat.succ_lt_succ h) =
      r[i] ^^^ r'[i] := by
  rw [sealRecord_succ E key r seq i h, sealRecord_succ E key r' seq i h, xform_xor_xform]

/-- Two typed frames under one key and sequence number, of any types and devices, leak the XOR of their plaintexts
(R175). -/
theorem buildTypedFrame_xor_buildTypedFrame (E : Cipher) (key : Key) (f g : TypedFrame)
    (hseq : f.sequenceNumber = g.sequenceNumber) (i : Nat) (h : i < 11) :
    (buildTypedFrame E key f)[i + 1]'(Nat.succ_lt_succ h) ^^^ (buildTypedFrame E key g)[i + 1]'(Nat.succ_lt_succ h) =
      (plaintextRecord f.deviceId f.payload)[i] ^^^ (plaintextRecord g.deviceId g.payload)[i] := by
  rw [buildTypedFrame_eq, buildTypedFrame_eq, hseq, sealRecord_xor_sealRecord]

/-- Settles O22: on an Initialized block each command answers its typed frame. -/
theorem nonceReuseLeaksPlaintextXor : Obligations.NonceReuseLeaksPlaintextXor := by
  refine ⟨fun E key _ p q nb i h => xform_xor_xform E key p q nb i h, fun s m order dev dev' seq hs => ?_⟩
  let f : TypedFrame := ⟨seq, dev, .measurement m⟩
  let g : TypedFrame := ⟨seq, dev', .control order⟩
  exact ⟨buildTypedFrame Config.E s.key f, buildTypedFrame Config.E s.key g,
    exec_initialized (.buildm m dev seq) s hs rfl, exec_initialized (.buildc order dev' seq) s hs rfl,
    buildTypedFrame_xor_buildTypedFrame Config.E s.key f g rfl⟩

end Sys2Proof.Machine
end

section
/-! PROOFS. The Record Codec (spec/41_record_codec.md R95 to R102): the number a packed order byte is and the slots it has,
and what the Measurement record's encode and decode make of each other. -/

namespace Sys2Proof.Machine

/-! ### The packed order byte (R97, R98, R102) -/

/-- A slot code joined below is the next base-4 digit. -/
theorem append_slotCode_toNat {w : Nat} (c : BitVec w) (slot : BitVec 2) :
    (c ++ slot).toNat = c.toNat * 4 + slot.toNat := by
  rw [BitVec.toNat_append, ← Nat.shiftLeft_add_eq_or_of_lt slot.isLt, Nat.shiftLeft_eq]

theorem packOrder_toNat (order : Order) :
    (packOrder order).toNat = (kindCode order[0]).toNat + 4 * (kindCode order[1]).toNat +
      16 * (kindCode order[2]).toNat + 64 * (kindCode order[3]).toNat := by
  simp only [packOrder, append_slotCode_toNat]
  omega

/-- UNPACK_ORDER reads slot `i` as base-4 digit `i`. -/
theorem kindCode_unpackOrder_toNat (b : Byte) (i : Nat) (h : i < 4) :
    (kindCode (unpackOrder b)[i]).toNat = b.toNat / 4 ^ i % 4 := by
  rw [unpackOrder_getElem, kindCode_kindOfCode, BitVec.extractLsb'_toNat, Nat.shiftRight_eq_div_pow, Nat.pow_mul]
  rfl

/-- Settles O14: the base-4 value, the two inverse laws and the digits. -/
theorem orderPackingIsBijection : Obligations.OrderPackingIsBijection :=
  ⟨fun order => ⟨packOrder_toNat order, unpackOrder_packOrder order⟩,
    fun b => ⟨packOrder_unpackOrder b, kindCode_unpackOrder_toNat b⟩⟩

/-! ### The Measurement record (R95, R96, R101) -/

/-- ENC_MEAS writes format M with the placeholder deviceId and pad byte 0 (R53, D9). -/
theorem encMeas_eq (m : Measurement) : encMeas m = encodeMeasRecord Config.deviceIdPlaceholder m 0 := rfl

/-- The four fields are bytes 2 to 9, so what was decoded is put back there under any deviceId and pad byte. -/
theorem encodeMeasRecord_decMeas_eq (deviceId : DeviceId) (pad : Byte) (r : Record) :
    encodeMeasRecord deviceId (decMeas r) pad =
      #v[1, deviceId, r[2], r[3], r[4], r[5], r[6], r[7], r[8], r[9], pad] := by
  simp only [encodeMeasRecord, decMeas, memRead16, toU16_toS16, highByte, lowByte, highByte_join, lowByte_join]

/-- DEC_MEAS reads neither the tag nor the deviceId that STAMP writes (R101). -/
theorem decMeas_stamp (r : Record) (tag deviceId : Byte) : decMeas (stamp r tag deviceId) = decMeas r := by
  have kept : ∀ (i : Nat) (h : i < 11), 2 ≤ i → (stamp r tag deviceId)[i] = r[i] := fun i h hi => by
    rw [stamp_getElem, if_neg (by omega), if_neg (by omega)]
  simp [decMeas, memRead16, kept]

theorem decMeas_encMeas (m : Measurement) : decMeas (encMeas m) = m := by
  rw [encMeas_eq, decMeas_encodeMeasRecord]

/-- Settles O15: both directions through format M, and STAMP through the two bytes it writes. -/
theorem measurementRecordRoundTrip : Obligations.MeasurementRecordRoundTrip := by
  refine ⟨fun m deviceId => ⟨decMeas_encMeas m, ?_⟩, fun r => ?_⟩
  · rw [decMeas_stamp, decMeas_encMeas]
  · rw [encMeas_eq, encodeMeasRecord_decMeas_eq]

end Sys2Proof.Machine
end

section
/-! PROOFS. The Frame Codec (spec/42_frame_codec.md R116 to R128): what PARSE_FRAME answers for the bytes it is given, the
dispatch of the table's format rows, and what a built frame is parsed to, under its own key, under another, and changed. -/

namespace Sys2Proof.Machine

/-! ### STAMP (R116) -/

/-- Settles O21: `stamp_getElem` at byte 0, at byte 1 and past them. -/
theorem stampWritesFirstTwoBytes : Obligations.StampWritesFirstTwoBytes := by
  refine fun r tag deviceId _ => ⟨?_, ?_, fun i h hi => ?_⟩
  · exact stamp_getElem r tag deviceId 0 (by decide)
  · exact stamp_getElem r tag deviceId 1 (by decide)
  · rw [stamp_getElem r tag deviceId i h, if_neg (by omega), if_neg (by omega)]

/-! ### The format rows (R120, R124) -/

theorem exec_recMeas (deviceId : DeviceId) (m : Measurement) (pad : Byte) (s : State) :
    exec (.recMeas deviceId m pad) s = .next (s.respond (.ok (.parsed deviceId (.measurement m)))) := rfl

theorem exec_recCtrl (deviceId : DeviceId) (order : Order) (hi : Vector Byte Config.ctrlBytesBefore)
    (lo : Vector Byte Config.ctrlBytesAfter) (s : State) :
    exec (.recCtrl deviceId order hi lo) s = .next (s.respond (.ok (.parsed deviceId (.control order)))) := rfl

theorem exec_frame (seq : SequenceNumber) (ct : Ciphertext) (s : State) :
    exec (.frame seq ct) s = .next (s.respond (recordResponse (openRecord Config.E s.key seq ct))) := rfl

/-- Settles O30. -/
theorem recordRowsAnswerTheirFields : Obligations.RecordRowsAnswerTheirFields :=
  fun s deviceId => ⟨fun m pad => exec_recMeas deviceId m pad s,
    fun order hi lo => exec_recCtrl deviceId order hi lo s⟩

/-! ### What PARSE_FRAME opens (R120 to R122) -/

/-- A record is opened by the keystream block of the frame's own nonce (R122, R88). -/
theorem openRecord_getElem (E : Cipher) (key : Key) (seq : SequenceNumber) (ct : Ciphertext) (i : Nat) (h : i < 11) :
    (openRecord E key seq ct)[i] = ct[i] ^^^ (E key (nonce seq))[i]'(Nat.lt_trans h (by decide)) :=
  xform_getElem_of_lt_blockBytes E key ct (nonce seq) i h (Nat.lt_trans h (by decide))

theorem parseData_wrongLength (E : Cipher) (key : Key) {data : List Byte} (h : data.length ≠ 12) :
    parseData E key data = .lengthError := by
  rw [parseData, frameOfData_none data h]

theorem parseData_toList (E : Cipher) (key : Key) (f : Frame) :
    parseData E key f.toList = recordResponse (openRecord E key f[0] (frameCiphertext f)) := by
  rw [parseData, frameOfData_toList]
  rfl

theorem parseData_cons (E : Cipher) (key : Key) (seq : SequenceNumber) (ct : Ciphertext) :
    parseData E key (seq :: ct.toList) = recordResponse (openRecord E key seq ct) := by
  obtain ⟨f, hf, rfl, rfl⟩ := frameOfData_cons seq ct
  rw [parseData, hf]
  rfl

theorem exec_parse {s : State} (hs : s.Initialized) (data : List Byte) :
    exec (.parse data) s = .next (s.respond (parseData Config.E s.key data)) :=
  exec_initialized (.parse data) s hs rfl

/-- Settles O29. -/
theorem parseRejectsWrongLength : Obligations.ParseRejectsWrongLength := by
  refine fun s data h => ⟨fun hs => ?_, fun E key => parseData_wrongLength E key h⟩
  rw [exec_parse hs, parseData_wrongLength _ _ h]
  rfl

/-! ### The two levels of dispatch (R56, R120 to R124) -/

/-- PARSE's lifecycle check passed, a frame's bytes run FRAME. -/
theorem exec_parse_cons {s : State} (hs : s.Initialized) (seq : SequenceNumber) (ct : Ciphertext) :
    exec (.parse (seq :: ct.toList)) s = exec (.frame seq ct) s := by
  rw [exec_parse hs, parseData_cons, exec_frame]

theorem exec_parse_of_decode_frame {s : State} (hs : s.Initialized) {data : List Byte} {i : Instr}
    (h : decode (.frame data) = .ok i) : exec (.parse data) s = exec i s := by
  by_cases hlen : data.length = 12
  · obtain ⟨f, _, rfl⟩ := frameOfData_of_length data hlen
    obtain rfl := Except.ok.inj (h.symm.trans (decode_frame_toList f))
    rw [← cons_frameCiphertext f, exec_parse_cons hs]
  · exact nomatch h.symm.trans (decode_frame_wrongLength hlen)

/-- PARSE_FRAME's answer for a record is what the row the record decodes to answers. -/
theorem exec_of_decode_record {r : Record} {i : Instr} (h : decode (.record r) = .ok i) (s : State) :
    exec i s = .next (s.respond (recordResponse r)) := by
  rcases recordResponse_decode r with ⟨hd, _⟩ | ⟨m, pad, hd, hr⟩ | ⟨order, hi, lo, hd, hr⟩
  · exact nomatch h.symm.trans hd
  · obtain rfl := Except.ok.inj (h.symm.trans hd)
    rw [hr, exec_recMeas]
  · obtain rfl := Except.ok.inj (h.symm.trans hd)
    rw [hr, exec_recCtrl]

theorem recordResponse_of_decode_error {r : Record} {e : DecodeError} (h : decode (.record r) = .error e) :
    recordResponse r = .unknownFrameType := by
  rcases recordResponse_decode r with ⟨_, hr⟩ | ⟨m, pad, hd, _⟩ | ⟨order, hi, lo, hd, _⟩
  · exact hr
  · exact nomatch h.symm.trans hd
  · exact nomatch h.symm.trans hd

/-- Settles O31: the frame by its length, the record by whether it decodes. -/
theorem parseDispatchesThroughRows : Obligations.ParseDispatchesThroughRows := by
  refine ⟨fun s data i hs h => exec_parse_of_decode_frame hs h, fun s seq ct => ?_⟩
  split
  next i h => exact (exec_of_decode_record h s).symm
  next e h =>
    rw [exec_frame, openRecord, recordResponse_of_decode_error h]
    rfl

/-! ### What a decrypted tag answers (R123, R124) -/

/-- FRAME in every state, and PARSE on an Initialized block, add the answer for the opened record and nothing else. -/
theorem frame_and_parse_answer {s : State} {seq : SequenceNumber} {ct : Ciphertext} {r : Response}
    (h : recordResponse (openRecord Config.E s.key seq ct) = r) :
    exec (.frame seq ct) s = .next (s.respond r) ∧
      (s.Initialized → exec (.parse (seq :: ct.toList)) s = .next (s.respond r)) := by
  have answer : exec (.frame seq ct) s = .next (s.respond r) := by rw [exec_frame, h]
  exact ⟨answer, fun hs => (exec_parse_cons hs seq ct).trans answer⟩

/-- DEC_MEAS reads each field at its offset, high byte first (R96, R53). -/
theorem decMeas_eq (r : Record) :
    decMeas r = ⟨Int16.ofBitVec (r[2] ++ r[3]), r[4] ++ r[5], r[6] ++ r[7], Int16.ofBitVec (r[8] ++ r[9])⟩ := rfl

/-- DEC_CTRL gives the order that packs to byte 4 (R100, D8). -/
theorem packOrder_decCtrl (r : Record) : packOrder (decCtrl r) = r[4] := packOrder_unpackOrder r[4]

/-- Settles O26: each byte that DEC_MEAS reads is the ciphertext's under its keystream byte. -/
theorem parseAnswersMeasurement : Obligations.ParseAnswersMeasurement := by
  intro s seq ct ks htag
  have opened := openRecord_getElem Config.E s.key seq ct
  have answer := recordResponse_meas _ ((opened 0 (by decide)).trans htag)
  simp only [decMeas_eq, opened] at answer
  exact frame_and_parse_answer answer

/-- Settles O27: the order is the one DEC_CTRL unpacks from the opened byte 4. -/
theorem parseAnswersControl : Obligations.ParseAnswersControl := by
  intro s seq ct ks htag
  have opened := openRecord_getElem Config.E s.key seq ct
  have answer := recordResponse_ctrl _ ((opened 0 (by decide)).trans htag)
  rw [opened 1 (by decide)] at answer
  exact ⟨decCtrl (openRecord Config.E s.key seq ct), (packOrder_decCtrl _).trans (opened 4 (by decide)),
    frame_and_parse_answer answer⟩

/-- Settles O28. -/
theorem parseRejectsUnknownTag : Obligations.ParseRejectsUnknownTag := by
  intro s seq ct ks hmeas hctrl
  have opened : (openRecord Config.E s.key seq ct)[0] = ct[0] ^^^ ks[0] := openRecord_getElem _ _ _ _ 0 (by decide)
  exact frame_and_parse_answer (recordResponse_unknown _ (opened ▸ hmeas) (opened ▸ hctrl))

/-! ### Building a typed frame and parsing it (R125, R128) -/

/-- On an Initialized block the pseudo-operation buildFrame answers its typed frame (R72, R131, R132). -/
theorem exec_buildCommand {s : State} (hs : s.Initialized) (f : TypedFrame) :
    exec (decodeCommand (buildCommand f)) s = .next (s.respond (.ok (.frame (buildTypedFrame Config.E s.key f)))) := by
  obtain ⟨seq, deviceId, m | order⟩ := f
  · exact exec_initialized (.buildm m deviceId seq) s hs rfl
  · exact exec_initialized (.buildc order deviceId seq) s hs rfl

/-- What a receiver with key `key'` takes for the plaintext of a frame built under `key` (R128). -/
def receivedRecord (E : Cipher) (key key' : Key) (f : TypedFrame) : Record :=
  openRecord E key' f.sequenceNumber (xform E key (plaintextRecord f.deviceId f.payload) (nonce f.sequenceNumber))

theorem parseData_buildTypedFrame (E : Cipher) (key key' : Key) (f : TypedFrame) :
    parseData E key' (buildTypedFrame E key f).toList = recordResponse (receivedRecord E key key' f) := by
  rw [buildTypedFrame_eq, parseData_toList, sealRecord_zero, frameCiphertext_sealRecord, receivedRecord]

theorem receivedRecord_same_key (E : Cipher) (key : Key) (f : TypedFrame) :
    receivedRecord E key key f = plaintextRecord f.deviceId f.payload :=
  openRecord_xform E key _ f.sequenceNumber

/-- The received tag is the frame's own under the first byte of either keystream (R128). -/
theorem receivedRecord_tag (E : Cipher) (key key' : Key) (f : TypedFrame) :
    (receivedRecord E key key' f)[0] = frameTag (frameTypeOf f.payload) ^^^
      (E key (nonce f.sequenceNumber))[0] ^^^ (E key' (nonce f.sequenceNumber))[0] := by
  rw [receivedRecord, openRecord_getElem _ _ _ _ 0 (by decide),
    xform_getElem_of_lt_blockBytes _ _ _ _ 0 (by decide) (by decide), plaintextRecord_tag]

/-- A plaintext record is answered with what it was made of. -/
theorem recordResponse_plaintextRecord (deviceId : DeviceId) (p : TypedRecord) :
    recordResponse (plaintextRecord deviceId p) = .ok (.parsed deviceId p) := by
  cases p with
  | measurement m =>
    have tag : (encodeMeasRecord deviceId m 0)[0] = 1 := rfl
    rw [plaintextRecord, recordResponse_meas _ tag, decMeas_encodeMeasRecord]
    rfl
  | control order =>
    rw [plaintextRecord, recordResponse_ctrl _ (encodeCtrlRecord_tag deviceId order _ _), encodeCtrlRecord_deviceId,
      decCtrl_encodeCtrlRecord]

/-- Under its own key a built frame is parsed to its deviceId and payload, for every cipher (R125). -/
theorem parseData_buildTypedFrame_same_key (E : Cipher) (key : Key) (f : TypedFrame) :
    parseData E key (buildTypedFrame E key f).toList = .ok (.parsed f.deviceId f.payload) := by
  rw [parseData_buildTypedFrame, receivedRecord_same_key, recordResponse_plaintextRecord]

/-- Two blocks with one key: what the one builds for a typed frame, the other parses back (R125). -/
theorem typedFrame_roundTrip {s s' : State} (hs : s.Initialized) (hs' : s'.Initialized) (hkey : s'.key = s.key)
    (f : TypedFrame) :
    ∃ wire : Frame, exec (decodeCommand (buildCommand f)) s = .next (s.respond (.ok (.frame wire))) ∧
      exec (.parse wire.toList) s' = .next (s'.respond (.ok (.parsed f.deviceId f.payload))) := by
  refine ⟨buildTypedFrame Config.E s.key f, exec_buildCommand hs f, ?_⟩
  rw [exec_parse hs', hkey, parseData_buildTypedFrame_same_key]

/-- Settles O38: BUILDM is buildFrame of a typed frame with a Measurement. -/
theorem measurementFrameRoundTrip : Obligations.MeasurementFrameRoundTrip :=
  fun _ _ m deviceId seq hs hs' hkey => typedFrame_roundTrip hs hs' hkey ⟨seq, deviceId, .measurement m⟩

/-- Settles O39: BUILDC is buildFrame of a typed frame with an order. -/
theorem controlFrameRoundTrip : Obligations.ControlFrameRoundTrip :=
  fun _ _ order deviceId seq hs hs' hkey => typedFrame_roundTrip hs hs' hkey ⟨seq, deviceId, .control order⟩

/-- Settles O40: the received tag decides the answer. -/
theorem otherKeyGivesTypeErrorOrValues : Obligations.OtherKeyGivesTypeErrorOrValues := by
  refine ⟨fun E key key' f => ?_, fun s s' f hs hs' => ⟨exec_buildCommand hs f, exec_parse hs' _⟩⟩
  intro tag r
  have received : (receivedRecord E key key' f)[0] = tag := receivedRecord_tag E key key' f
  have answer : r = recordResponse (receivedRecord E key key' f) := parseData_buildTypedFrame E key key' f
  refine ⟨fun h1 h2 => ?_, fun h1 => ?_, fun h2 => ?_⟩
  · exact answer.trans (recordResponse_unknown _ (received ▸ h1) (received ▸ h2))
  · exact ⟨_, _, answer.trans (recordResponse_meas _ (received.trans h1))⟩
  · exact ⟨_, _, answer.trans (recordResponse_ctrl _ (received.trans h2))⟩

/-! ### A changed ciphertext byte (R126) -/

/-- A difference in one byte of a buffer meets no other byte, and commutes with the keystream byte it meets. -/
theorem xform_set_xor {L : Nat} (E : Cipher) (key : Key) (buf : Vector Byte L) (nb : Block) (j : Nat) (h : j < L)
    (d : Byte) :
    xform E key (buf.set j (buf[j] ^^^ d)) nb = (xform E key buf nb).set j ((xform E key buf nb)[j] ^^^ d) := by
  refine Vector.ext fun i hi => ?_
  rw [xform_getElem]
  by_cases hij : j = i
  · subst hij
    rw [Vector.getElem_set_self, Vector.getElem_set_self, xform_getElem, BitVec.xor_assoc, BitVec.xor_comm d,
      ← BitVec.xor_assoc]
  · rw [Vector.getElem_set_ne _ _ hij, Vector.getElem_set_ne _ _ hij, xform_getElem]

theorem openRecord_set_xor (E : Cipher) (key : Key) (seq : SequenceNumber) (ct : Ciphertext) (j : Nat) (h : j < 11)
    (d : Byte) :
    openRecord E key seq (ct.set j (ct[j] ^^^ d)) =
      (openRecord E key seq ct).set j ((openRecord E key seq ct)[j] ^^^ d) :=
  xform_set_xor E key ct (nonce seq) j h d

/-- Only a Measurement record is answered as one. -/
theorem tag_of_recordResponse_meas {r : Record} {deviceId : DeviceId} {m : Measurement}
    (h : recordResponse r = .ok (.parsed deviceId (.measurement m))) : r[0] = 1 ∧ r[1] = deviceId := by
  by_cases h1 : r[0] = 1
  · rw [recordResponse_meas r h1] at h
    injection h with h
    injection h with hdev
    exact ⟨h1, hdev⟩
  · by_cases h2 : r[0] = 2
    · exact nomatch h.symm.trans (recordResponse_ctrl r h2)
    · exact nomatch h.symm.trans (recordResponse_unknown r h1 h2)

/-- Tags 1 and 2 differ by 3 (R56), and the deviceId stands in another byte. -/
theorem recordResponse_flipped_tag {r : Record} {deviceId : DeviceId} {m : Measurement}
    (h : recordResponse r = .ok (.parsed deviceId (.measurement m))) :
    ∃ order, recordResponse (r.set 0 (r[0] ^^^ 3#8)) = .ok (.parsed deviceId (.control order)) := by
  obtain ⟨htag, rfl⟩ := tag_of_recordResponse_meas h
  have flipped : (r.set 0 (r[0] ^^^ 3#8))[0] = 2 := by
    rw [Vector.getElem_set_self, htag]
    rfl
  have kept : (r.set 0 (r[0] ^^^ 3#8))[1] = r[1] := Vector.getElem_set_ne _ _ (by decide)
  exact ⟨_, kept ▸ recordResponse_ctrl _ flipped⟩

/-- Settles O41: an answer is a Measurement only for tag 1, which the difference turns into tag 2. -/
theorem flippedBitsPassThrough : Obligations.FlippedBitsPassThrough := by
  refine ⟨openRecord_set_xor, fun s seq ct dev m hs hparse => ?_⟩
  have accepted : recordResponse (openRecord Config.E s.key seq ct) = .ok (.parsed dev (.measurement m)) := by
    rw [exec_parse hs, parseData_cons] at hparse
    have responses := congrArg State.responses (Host.Outcome.next.inj hparse)
    exact List.singleton_inj.1 (List.append_cancel_left responses)
  obtain ⟨order, flipped⟩ := recordResponse_flipped_tag accepted
  refine ⟨order, ?_⟩
  rw [exec_parse hs, parseData_cons, openRecord_set_xor, flipped]
  rfl

end Sys2Proof.Machine
end

section
/-! PROOFS. The Protocol Facade (spec/43_protocol_facade.md R130 to R137): what INIT, BUILDM and BUILDC answer where they
complete, the lifecycle table, and the step that runs an encoded instruction placed in front of the block. -/

namespace Sys2Proof.Machine

/-! ### INIT (R130) -/

/-- Settles O23: `loadKey` and `respond` write the three fields. -/
theorem initStoresKey : Obligations.InitStoresKey :=
  fun _ key hs => exec_init_uninitialized key hs

/-! ### The frames BUILDM and BUILDC answer (R117, R118, R131, R132) -/

/-- A sealed record, byte by byte: all eleven bytes meet keystream block 0 (R51, R88, D6). -/
theorem sealRecord_eq (E : Cipher) (key : Key) (r : Record) (seq : SequenceNumber) :
    sealRecord E key r seq =
      #v[seq, r[0] ^^^ (E key (nonce seq))[0], r[1] ^^^ (E key (nonce seq))[1], r[2] ^^^ (E key (nonce seq))[2],
        r[3] ^^^ (E key (nonce seq))[3], r[4] ^^^ (E key (nonce seq))[4], r[5] ^^^ (E key (nonce seq))[5],
        r[6] ^^^ (E key (nonce seq))[6], r[7] ^^^ (E key (nonce seq))[7], r[8] ^^^ (E key (nonce seq))[8],
        r[9] ^^^ (E key (nonce seq))[9], r[10] ^^^ (E key (nonce seq))[10]] := by
  have byte (i : Nat) (h : i < 11) :
      (xform E key r (nonce seq))[i] = r[i] ^^^ (E key (nonce seq))[i]'(Nat.lt_trans h (by decide)) :=
    openRecord_getElem E key seq r i h
  rw [sealRecord, record_eta (xform E key r (nonce seq))]
  simp only [byte, Vector.mk_append_mk, List.append_toArray, List.cons_append, List.nil_append]

/-- Settles O24: format M with pad byte 0, sealed. -/
theorem buildmAnswersFrame : Obligations.BuildmAnswersFrame := by
  intro s m dev seq hs ks
  have frame := sealRecord_eq Config.E s.key (encodeMeasRecord dev m 0) seq
  have pad : (encodeMeasRecord dev m 0)[10] ^^^ ks[10] = ks[10] := BitVec.zero_xor
  rw [exec_initialized (.buildm m dev seq) s hs rfl, normalResponse, buildFrameM, measRecord_eq, frame, pad]
  rfl

/-- Settles O25: format C with its unused bytes 0, sealed. -/
theorem buildcAnswersFrame : Obligations.BuildcAnswersFrame := by
  intro s order dev seq hs ks
  have frame := sealRecord_eq Config.E s.key #v[2, dev, 0, 0, packOrder order, 0, 0, 0, 0, 0, 0] seq
  rw [exec_initialized (.buildc order dev seq) s hs rfl, normalResponse, buildFrameC, ctrlRecord_eq, frame]
  simp [State.respond, packOrder, ks]

/-! ### The lifecycle table (R134, R135, R154) -/

theorem State.Uninitialized.violates_other {s : State} (hs : s.Uninitialized) : s.violates false = true := by
  obtain ⟨hlife, _⟩ := hs
  simp [State.violates, hlife]

theorem State.Initialized.violates_init {s : State} (hs : s.Initialized) : s.violates true = true := by
  obtain ⟨hlife, _⟩ := hs
  simp [State.violates, hlife]

theorem recordResponse_ne_fatal (r : Record) : recordResponse r ≠ .fatal := by
  rcases recordResponse_decode r with ⟨_, h⟩ | ⟨m, pad, _, h⟩ | ⟨order, hi, lo, _, h⟩ <;> simp [h]

theorem parseData_ne_fatal (E : Cipher) (key : Key) (data : List Byte) : parseData E key data ≠ .fatal := by
  by_cases hlen : data.length = 12
  · obtain ⟨f, _, rfl⟩ := frameOfData_of_length data hlen
    rw [parseData_toList]
    exact recordResponse_ne_fatal _
  · simp [parseData_wrongLength E key hlen]

/-- Only a contract violation is answered FATAL (R153, R154). -/
theorem normalResponse_ne_fatal (i : Instr) (s : State) : normalResponse i s ≠ .fatal := by
  cases i with
  | parse data => exact parseData_ne_fatal Config.E s.key data
  | frame seq ct => exact recordResponse_ne_fatal _
  | init | buildm | buildc | recMeas | recCtrl => exact Response.noConfusion

theorem exists_init_of_isInit {i : Instr} (h : IsInit i = true) : ∃ key, i = .init key := by
  cases i with
  | init key => exact ⟨key, rfl⟩
  | buildm | buildc | parse | recMeas | recCtrl | frame => cases h

/-- Settles O33: the two clauses where the contract is kept by the branch of `exec` taken, the other three by the fatal
exception. -/
theorem lifecycleTableHolds : Obligations.LifecycleTableHolds := by
  intro i s t hc h
  have target {u : State} (hu : exec i s = .next u) : t = u := Host.Outcome.next.inj (h.symm.trans hu)
  have fatal (hv : s.violates (IsInit i) = true) : t = s.fatal := target (exec_violation hc hv)
  refine ⟨fun hs hi => ?_, fun hs hi => ?_, fun hs hi => ?_, fun hs hi => ?_, fun hs => ?_⟩
  · obtain ⟨key, rfl⟩ := exists_init_of_isInit hi
    obtain rfl := target (exec_init_uninitialized key hs)
    exact ⟨⟨rfl, hs.2⟩, rfl, rfl⟩
  · obtain rfl := fatal (hi ▸ hs.violates_other)
    exact ⟨rfl, rfl, hs.1, rfl⟩
  · obtain rfl := fatal (hi ▸ hs.violates_init)
    exact ⟨rfl, rfl, hs.1, rfl⟩
  · obtain rfl := target (exec_initialized i s hs hi)
    exact ⟨hs, rfl, _, rfl, normalResponse_ne_fatal i s⟩
  · obtain rfl := fatal (s.violates_of_fault (IsInit i) hs)
    exact ⟨rfl, rfl, rfl, rfl⟩

/-! ### An encoded instruction, placed (R73, R137) -/

/-- Only a command encodes to what stands on the command port. -/
theorem isCommand_eq_false_of_encode {i : Instr} (h : ∀ c, encode i ≠ .command c) : IsCommand i = false := by
  cases i with
  | recMeas | recCtrl | frame => rfl
  | init | buildm | buildc | parse => exact absurd rfl (h _)

/-- The event put in front is the one taken, so the command runs in the state it was put in front of. -/
theorem step_issue_command (s : State) (c : Command) : step (s.issue (.command c)) = exec (decodeCommand c) s :=
  step_command (s.issue (.command c)) c s.pending rfl

theorem step_presentData (s : State) (data : List Byte) :
    step (s.presentData data) = exec (.parse data) { s with life := .initialized, fault := false } := by
  have decoded : decodeCommand (parseCommand data) = .parse data := Except.ok.inj (decode_command_parse rfl)
  rw [State.presentData, step_issue_command, decoded]

theorem step_place_frame (s : State) {data : List Byte} {i : Instr} (h : decode (.frame data) = .ok i) :
    step (s.place (.frame data)) = exec i { s with life := .initialized, fault := false } :=
  (step_presentData s data).trans (exec_parse_of_decode_frame ⟨rfl, rfl⟩ h)

/-- PARSE opens what `place` sealed under the same KEY, and answers what the record's row answers. -/
theorem step_place_record (s : State) {r : Record} {i : Instr} (h : decode (.record r) = .ok i) :
    step (s.place (.record r)) = exec i { s with life := .initialized, fault := false } := by
  rw [State.place, step_presentData, exec_parse ⟨rfl, rfl⟩, parseData_toList, sealRecord_zero,
    frameCiphertext_sealRecord, openRecord_xform, exec_of_decode_record h]

theorem exists_encoded_of_decodeTableWord {nbits w : Nat} {i : Instr} (h : decodeTableWord nbits w = some i) :
    ∃ e, tableEncoded nbits w = some e ∧ decode e = .ok i := by
  unfold decodeTableWord at h
  split at h
  next e he =>
    refine ⟨e, he, ?_⟩
    cases hd : decode e with
    | ok j => simpa [hd, Except.toOption] using h
    | error x => simp [hd, Except.toOption] at h
  next => cases h

theorem State.withFetchWord_eq_place (s : State) {nbits w : Nat} {e : Encoded} (h : tableEncoded nbits w = some e) :
    s.withFetchWord nbits w = s.place e := by
  rw [State.withFetchWord, h]

/-- Settles O10: by the format of the word. -/
theorem fetchedWordIsRun : Obligations.FetchedWordIsRun := by
  intro s nbits w i h
  obtain ⟨e, he, hd⟩ := exists_encoded_of_decodeTableWord h
  rw [s.withFetchWord_eq_place he]
  cases e with
  | command c =>
    obtain rfl := Except.ok.inj hd
    have command : IsCommand (decodeCommand c) = true := isCommand_decodeCommand c
    exact ⟨fun _ => step_issue_command s c, by simp [command]⟩
  | record r =>
    have row : IsCommand i = false := isCommand_eq_false_of_encode (by simp [encode_of_decode_record hd])
    exact ⟨by simp [row], fun _ => step_place_record s hd⟩
  | frame data =>
    have row : IsCommand i = false := isCommand_eq_false_of_encode (by simp [encode_of_decode_frame hd])
    exact ⟨by simp [row], fun _ => step_place_frame s hd⟩

end Sys2Proof.Machine
end

section
/-! PROOFS. The exceptions, the host's contract and its sequence counter (spec/60_exceptions.md R149 to R166): every
instruction and every step answers, what a command the contract allows gets, what a run of any length keeps and counts,
and the sequence numbers of the reference sender. -/

namespace Sys2Proof.Machine

/-! ### Every instruction and every step answers (R149, R166) -/

/-- Settles O34: each branch of `exec` responds once. -/
theorem everyInstructionAnswersOnce : Obligations.EveryInstructionAnswersOnce := by
  intro i s
  rcases exec_cases i s with ⟨_, _, h⟩ | ⟨k, _, _, h⟩ | ⟨_, _, h⟩ <;> exact ⟨_, _, h, rfl⟩

theorem exists_step_next (s : State) : ∃ t, step s = .next t := by
  match hp : s.pending with
  | [] => exact ⟨s, step_idle s hp⟩
  | .reset :: rest => exact ⟨_, step_reset s rest hp⟩
  | .command c :: rest =>
    obtain ⟨t, _, he, _⟩ := everyInstructionAnswersOnce (decodeCommand c) { s with pending := rest }
    exact ⟨t, (step_command s c rest hp).trans he⟩

/-! ### A command the contract allows (R164, R173) -/

/-- The contract allows INIT on an Uninitialized block and every other command on an Initialized one. -/
theorem contractOk_command (life : Life) (c : Command) (rest : List HostEvent) :
    ContractOk life (.command c :: rest) = true ↔
      IsInit (decodeCommand c) = decide (life = .uninitialized) ∧ ContractOk .initialized rest = true := by
  cases life <;> simp [ContractOk, isInit_decodeCommand]

/-- Such a command completes: the two rows of the lifecycle table that are no violation (R134). -/
theorem exec_of_contract {i : Instr} {s t : State} (hc : IsCommand i = true) (hf : s.fault = false)
    (hallowed : IsInit i = decide (s.life = .uninitialized)) (h : exec i s = .next t) :
    t.Initialized ∧ ∃ r, t.responses = s.responses ++ [r] ∧ r ≠ .fatal := by
  obtain ⟨initCompletes, _, _, otherCompletes, _⟩ := lifecycleTableHolds i s t hc h
  cases hlife : s.life with
  | uninitialized =>
    obtain ⟨ht, _, hr⟩ := initCompletes ⟨hlife, hf⟩ (by simpa [hlife] using hallowed)
    exact ⟨ht, _, hr, Response.noConfusion⟩
  | initialized =>
    obtain ⟨ht, _, hr⟩ := otherCompletes ⟨hlife, hf⟩ (by simpa [hlife] using hallowed)
    exact ⟨ht, hr⟩

theorem exec_keeps_contract {c : Command} {s t : State} (hf : s.fault = false)
    (hok : ContractOk s.life (.command c :: s.pending) = true) (hno : .fatal ∉ s.responses)
    (h : exec (decodeCommand c) s = .next t) : t.ContractInv := by
  obtain ⟨hallowed, hrest⟩ := (contractOk_command s.life c s.pending).1 hok
  obtain ⟨⟨hlife, hfault⟩, r, hr, hne⟩ := exec_of_contract (isCommand_decodeCommand c) hf hallowed h
  have hpending : t.pending = s.pending := (exec_keeps_pending_resets h).1
  refine ⟨hfault, ?_, ?_⟩
  · rwa [hlife, hpending]
  · simpa [hr, hno] using hne.symm

/-- Settles O46: a reset begins the contract anew, and a command it allows completes. -/
theorem stepKeepsContract : Obligations.StepKeepsContract := by
  rintro s t ⟨hf, hok, hno⟩ h
  rcases step_cases s t h with ⟨_, rfl⟩ | ⟨rest, hp, rfl⟩ | ⟨c, rest, hp, he⟩
  · exact ⟨hf, hok, hno⟩
  · rw [hp] at hok
    exact ⟨rfl, hok, hno⟩
  · rw [hp] at hok
    exact exec_keeps_contract (s := { s with pending := rest }) hf hok hno he

/-- Settles O48. -/
theorem resetMeetsInvariants : Obligations.ResetMeetsInvariants := by
  have resetWith (events : List HostEvent) (hok : ContractOk .uninitialized events = true) :
      { State.reset with pending := events }.ContractInv := ⟨rfl, hok, List.not_mem_nil⟩
  exact ⟨resetWith [] rfl, Bool.noConfusion, fun _ hc => absurd hc List.not_mem_nil, resetWith⟩

/-! ### Runs of any length (R166, R184) -/

/-- A run of any length completes, and what every step keeps holds at its end. -/
theorem runFor_keeps {P : State → Prop} (hstep : ∀ s t, step s = .next t → P s → P t) (n : Nat) (s : State)
    (hs : P s) : ∃ t, runFor n s = .next t ∧ P t := by
  induction n generalizing s with
  | zero => exact ⟨s, rfl, hs⟩
  | succ n ih =>
    obtain ⟨u, hu⟩ := exists_step_next s
    rw [runFor_succ n s u hu]
    exact ih u (hstep s u hu hs)

theorem runFor_pending {n : Nat} {s t : State} (h : runFor n s = .next t) : t.pending = s.pending.drop n := by
  induction n generalizing s with
  | zero => exact congrArg State.pending (Host.Outcome.next.inj h).symm
  | succ n ih =>
    obtain ⟨u, hu⟩ := exists_step_next s
    rw [runFor_succ n s u hu] at h
    rw [ih h, step_pending hu, List.drop_tail]

/-- Settles O50: every step keeps the contract invariant, which says that no response is FATAL. -/
theorem contractRunIsNotFaulted : Obligations.ContractRunIsNotFaulted := by
  intro n s hs
  obtain ⟨t, hrun, _, _, hno⟩ := runFor_keeps (fun s t h hs => stepKeepsContract s t hs h) n s hs
  exact ⟨t, hrun, hno⟩

/-- The responses given and the commands still to be answered: no step changes how many they are together. -/
def State.answerCount (s : State) : Nat := s.responses.length + commandCount s.pending

theorem step_answerCount {s t : State} (h : step s = .next t) : t.answerCount = s.answerCount := by
  rcases step_cases s t h with ⟨_, rfl⟩ | ⟨rest, hp, rfl⟩ | ⟨c, rest, hp, he⟩
  · rfl
  · simp [State.answerCount, hp, commandCount]
  · obtain ⟨r, hr⟩ := exec_appends_response he
    have hpending : t.pending = rest := (exec_keeps_pending_resets he).1
    simp only [State.answerCount, hp, hr, hpending, commandCount, List.length_append, List.length_singleton]
    omega

/-- Settles O51: the events are used up one by one, and the count is kept. -/
theorem runEndsWithEveryCommandAnswered : Obligations.RunEndsWithEveryCommandAnswered := by
  intro s
  obtain ⟨t, hrun, hcount⟩ := runFor_keeps (P := (·.answerCount = s.answerCount))
    (fun _ _ h hs => (step_answerCount h).trans hs) s.pending.length s rfl
  have hended : t.pending = [] := (runFor_pending hrun).trans List.drop_length
  refine ⟨t, hrun, hended, ?_⟩
  simpa [State.answerCount, hended, commandCount] using hcount

/-! ### The reference sender's counter (R160, D24) -/

theorem senderFrames_length (h : Sender) (records : List (DeviceId × TypedRecord)) :
    (senderFrames h records).length = records.length := by
  induction records generalizing h with
  | nil => rfl
  | cons _ rest ih => exact congrArg (· + 1) (ih (senderAdvance h))

/-- Frame `n` carries the counter as it stands after the `n` frames before it. -/
theorem senderFrames_sequenceNumber (h : Sender) (records : List (DeviceId × TypedRecord)) (n : Nat)
    (hn : n < (senderFrames h records).length) :
    (senderFrames h records)[n].sequenceNumber = (senderAfter h n).counter := by
  induction records generalizing h n with
  | nil => cases hn
  | cons _ rest ih =>
    cases n with
    | zero => rfl
    | succ n => exact ih (senderAdvance h) n (Nat.lt_of_succ_lt_succ hn)

theorem senderAfter_counter (h : Sender) (n : Nat) :
    (senderAfter h n).counter.toNat = (h.counter.toNat + n) % 256 := by
  induction n generalizing h with
  | zero => exact (Nat.mod_eq_of_lt h.counter.isLt).symm
  | succ n ih =>
    have advanced : (senderAdvance h).counter.toNat = (h.counter.toNat + 1) % 256 := BitVec.toNat_add h.counter 1
    rw [senderAfter, ih, advanced]
    omega

/-- Settles O52. -/
theorem sequenceCounterAdvances : Obligations.SequenceCounterAdvances := by
  refine fun h records => ⟨senderFrames_length h records, fun n hn => ?_, senderAfter_counter h records.length⟩
  rw [senderFrames_sequenceNumber h records n hn]
  exact senderAfter_counter h n

/-! ### The nonce duty (R161) -/

/-- Different frames that keep the duty have different sequence numbers. -/
theorem NoNonceReuse.nodup_sequenceNumbers {frames : List TypedFrame} (hduty : NoNonceReuse frames)
    (hnodup : frames.Nodup) : (frames.map TypedFrame.sequenceNumber).Nodup :=
  hnodup.map_on hduty

/-- Settles O54: nonce blocks tell sequence numbers apart, and there are 256 of those. -/
theorem nonceDutyHoldsForAtMost256 : Obligations.NonceDutyHoldsForAtMost256 := by
  intro frames hduty hnodup
  constructor
  · exact fun f hf g hg hne hnonce => hne (hduty f hf g hg (nonce_injective hnonce))
  · calc
      frames.length = (frames.map TypedFrame.sequenceNumber).length := (List.length_map _).symm
      _ ≤ Fintype.card SequenceNumber := (hduty.nodup_sequenceNumbers hnodup).length_le_card
      _ = 256 := FinEnum.card_eq_fintypeCard.symm.trans (FinEnum.card_bitVec 8)

end Sys2Proof.Machine
end

section
/-! PROOFS. Reset and the nonce space (spec/70_reset_and_hazards.md R169, R170, R176): the step that runs no command, and
the frame the reference sender asks for 256 places after another. -/

namespace Sys2Proof.Machine

/-! ### The step that runs no command (R169, R170) -/

/-- Settles O9: `step_idle`, and the fields `resetEvent` writes. -/
theorem stepIdlesOrResets : Obligations.StepIdlesOrResets :=
  ⟨step_idle, fun s rest hpending => ⟨_, step_reset s rest hpending, rfl, rfl, rfl, rfl⟩⟩

/-! ### The nonce space (R160, R176) -/

/-- Frame `n` asks for record `n`, with the counter as it stands after the `n` frames before it (R160). -/
theorem senderFrames_getElem? {h : Sender} {records : List (DeviceId × TypedRecord)} {n : Nat} {dev : DeviceId}
    {p : TypedRecord} (hrecord : records[n]? = some (dev, p)) :
    (senderFrames h records)[n]? = some (senderFrame (senderAfter h n) dev p) := by
  induction records generalizing h n with
  | nil => cases hrecord
  | cons _ rest ih =>
    cases n with
    | zero =>
      obtain rfl := Option.some.inj hrecord
      rfl
    | succ n => exact ih hrecord

/-- The counter is all a sender has. -/
theorem Sender.eq_of_counter_eq {h h' : Sender} (hcounter : h.counter = h'.counter) : h = h' :=
  congrArg Sender.mk hcounter

/-- The counter wraps, so the sender is back where it was. -/
theorem senderAfter_add_256 (h : Sender) (n : Nat) : senderAfter h (n + 256) = senderAfter h n := by
  apply Sender.eq_of_counter_eq
  apply BitVec.eq_of_toNat_eq
  rw [senderAfter_counter, senderAfter_counter, ← Nat.add_assoc, Nat.add_mod_right]

/-- A built frame carries its sequence number in the clear (R51). -/
theorem buildTypedFrame_zero (E : Cipher) (key : Key) (f : TypedFrame) :
    (buildTypedFrame E key f)[0] = f.sequenceNumber := by
  rw [buildTypedFrame_eq, sealRecord_zero]

/-- Settles O53: after 256 frames the two have one sequence number; the block builds both, and their common keystream
cancels. -/
theorem nonceSpaceExhaustsAfter256 : Obligations.NonceSpaceExhaustsAfter256 := by
  intro s h records n dev dev' p p' hs hrecord hrecord'
  let a : TypedFrame := senderFrame (senderAfter h n) dev p
  let b : TypedFrame := senderFrame (senderAfter h n) dev' p'
  have asked : (senderFrames h records)[n + 256]? = some b := by
    rw [senderFrames_getElem? hrecord', senderAfter_add_256]
  refine ⟨a, b, buildTypedFrame Config.E s.key a, buildTypedFrame Config.E s.key b, senderFrames_getElem? hrecord, asked,
    exec_buildCommand hs a, exec_buildCommand hs b, ?_, ?_, ?_⟩
  · exact (buildTypedFrame_zero Config.E s.key a).trans (buildTypedFrame_zero Config.E s.key b).symm
  · exact buildTypedFrame_xor_buildTypedFrame Config.E s.key a b rfl
  · rintro rfl rfl
    rfl

end Sys2Proof.Machine
end

section
/-! PROOFS. The counter block (spec/40_cipher_engine.md R89; spec/20_memory.md R33): the carry loop of CTR_INC, and the
number its bytes are from the most significant one on. -/

namespace Sys2Proof.Machine

/-- The number the first `n` bytes of a block are, big-endian (R33). -/
def prefixValue (blk : Block) (n : Nat) : Nat := (blk.toList.take n).foldl (fun acc b => 256 * acc + b.toNat) 0

theorem blockValue_eq_prefixValue (blk : Block) : blockValue blk = prefixValue blk 16 := by
  rw [blockValue, prefixValue, List.take_of_length_le (by simp)]

@[simp] theorem prefixValue_zero (blk : Block) : prefixValue blk 0 = 0 := rfl

theorem prefixValue_succ (blk : Block) (n : Nat) (h : n < 16) :
    prefixValue blk (n + 1) = 256 * prefixValue blk n + blk[n].toNat := by
  have inside : n < blk.toList.length := by simpa using h
  have split : blk.toList.take (n + 1) = blk.toList.take n ++ [blk[n]] := by
    rw [List.take_succ_eq_append_getElem inside, Vector.getElem_toList]
  rw [prefixValue, split, List.foldl_concat, prefixValue]

theorem prefixValue_lt (blk : Block) (n : Nat) (h : n ≤ 16) : prefixValue blk n < 256 ^ n := by
  induction n with
  | zero => exact Nat.one_pos
  | succ n ih =>
    have higher := ih (Nat.le_of_succ_le h)
    have byte := blk[n].isLt
    rw [prefixValue_succ blk n h, Nat.pow_succ]
    omega

theorem prefixValue_set (blk : Block) (n i : Nat) (hi : i < 16) (b : Byte) (h : n ≤ i) :
    prefixValue (blk.set i b) n = prefixValue blk n := by
  rw [prefixValue, Vector.toList_set, List.take_set_of_le h, prefixValue]

/-- The carry never runs back to a less significant byte. -/
theorem ctrCarry_getElem_of_lt (blk : Block) (i : Nat) (h : i < 16) (j : Nat) (hj : j < 16) (hij : i < j) :
    (ctrCarry blk i h)[j] = blk[j] := by
  induction i generalizing blk with
  | zero => exact Vector.getElem_set_ne _ _ hij.ne
  | succ i ih =>
    have kept : (blk.set (i + 1) (blk[i + 1] + 1))[j] = blk[j] := Vector.getElem_set_ne _ _ hij.ne
    rw [ctrCarry]
    split
    · exact kept
    · exact (ih _ _ (Nat.lt_of_succ_lt hij)).trans kept

/-- The one place a carry is made: a byte at 255. -/
theorem byte_succ_toNat (b : Byte) :
    b + 1 ≠ 0 ∧ (b + 1).toNat = b.toNat + 1 ∨ b + 1 = 0 ∧ b.toNat = 255 := by
  revert b
  decide

/-- A carry of 1 into the bytes above is the step from 255 to 256 in the byte below. -/
theorem mul_succ_mod (higher n : Nat) :
    256 * ((higher + 1) % 256 ^ n) = (256 * higher + 255 + 1) % 256 ^ (n + 1) := by
  rw [Nat.pow_succ', ← Nat.mul_mod_mul_left, Nat.mul_add_one]

/-- The first `i + 1` bytes go up by 1 and wrap: where byte `i` stays below 256 the loop stops, and where it becomes 0
the carry is 256 times a 1 added to the bytes before it. -/
theorem prefixValue_ctrCarry (blk : Block) (i : Nat) (h : i < 16) :
    prefixValue (ctrCarry blk i h) (i + 1) = (prefixValue blk (i + 1) + 1) % 256 ^ (i + 1) := by
  induction i generalizing blk with
  | zero =>
    simp only [ctrCarry, prefixValue_succ _ 0 h, prefixValue_zero, Vector.getElem_set_self, BitVec.toNat_add,
      Nat.mul_zero, Nat.zero_add]
    rfl
  | succ i ih =>
    have higher : prefixValue (blk.set (i + 1) (blk[i + 1] + 1)) (i + 1) = prefixValue blk (i + 1) :=
      prefixValue_set blk (i + 1) (i + 1) h _ (Nat.le_refl _)
    have byte : (blk.set (i + 1) (blk[i + 1] + 1))[i + 1] = blk[i + 1] + 1 := Vector.getElem_set_self _
    rw [ctrCarry, prefixValue_succ _ (i + 1) h, prefixValue_succ blk (i + 1) h]
    rcases byte_succ_toNat blk[i + 1] with ⟨hne, hsucc⟩ | ⟨hzero, hmax⟩
    · have bound := prefixValue_lt blk (i + 1) (Nat.le_of_lt h)
      have stays : blk[i + 1].toNat + 1 < 256 := hsucc ▸ (blk[i + 1] + 1).isLt
      have fits : 256 * prefixValue blk (i + 1) + blk[i + 1].toNat + 1 < 256 ^ (i + 2) := by
        rw [Nat.pow_succ]
        omega
      rw [if_pos (byte.symm ▸ hne), higher, byte, hsucc, Nat.mod_eq_of_lt fits, Nat.add_assoc]
    · have below : (ctrCarry (blk.set (i + 1) (blk[i + 1] + 1)) i (Nat.lt_of_succ_lt h))[i + 1] = 0 := by
        rw [ctrCarry_getElem_of_lt _ _ _ _ h (Nat.lt_succ_self i), byte, hzero]
      rw [if_neg (not_not.2 (byte.trans hzero)), below, ih, higher, hmax]
      exact mul_succ_mod _ (i + 1)

/-- Settles O19: the carry loop from the last byte reaches all sixteen. -/
theorem counterIncrementsBigEndian : Obligations.CounterIncrementsBigEndian := by
  intro blk
  rw [blockValue_eq_prefixValue, blockValue_eq_prefixValue]
  exact prefixValue_ctrCarry blk 15 (by decide)

end Sys2Proof.Machine
end

section
/-! PROOFS. The Control record (spec/41_record_codec.md R99, R100): the bytes ENC_CTRL writes and the one DEC_CTRL
reads. -/

namespace Sys2Proof.Machine

/-- ENC_CTRL writes format C with the placeholder deviceId and every unused byte 0 (R54, D8, D9). -/
theorem encCtrl_eq (order : Order) : encCtrl order = #v[2, 0, 0, 0, packOrder order, 0, 0, 0, 0, 0, 0] := rfl

/-- DEC_CTRL reads the order byte alone (R100, D8). -/
theorem decCtrl_eq (r : Record) : decCtrl r = unpackOrder r[4] := rfl

theorem decCtrl_encCtrl (order : Order) : decCtrl (encCtrl order) = order := by
  rw [encCtrl_eq, decCtrl_eq]
  exact unpackOrder_packOrder order

/-- Settles O16. -/
theorem controlRecordRoundTrip : Obligations.ControlRecordRoundTrip :=
  ⟨fun order => ⟨encCtrl_eq order, decCtrl_encCtrl order⟩, fun _ _ h => congrArg unpackOrder h⟩

end Sys2Proof.Machine
end

section
/-! PROOFS. The fatal exception (spec/60_exceptions.md R135, R154; D10 to D12): every contract violation takes it, and a
Faulted block takes it for every command until a reset. -/

namespace Sys2Proof.Machine

/-! ### A contract violation -/

/-- The three causes of the fatal exception (R135, R148). -/
theorem State.violates_iff (s : State) (isInit : Bool) :
    s.violates isInit = true ↔
      s.fault = true ∨ (isInit = true ∧ s.life = .initialized) ∨ (isInit = false ∧ s.life = .uninitialized) := by
  cases isInit <;> simp [State.violates]

/-- Settles O32: PRECHECK fails, and `State.fatal` writes FAULT and the response. -/
theorem violationTakesFatalException : Obligations.ViolationTakesFatalException :=
  fun i s hc hcause => exec_violation hc ((s.violates_iff (IsInit i)).2 hcause)

/-! ### A run of a Faulted block -/

/-- A command finds FAULT set, whatever it is (R154). -/
theorem step_faulted {s : State} {c : Command} {rest : List HostEvent} (hf : s.fault = true)
    (hp : s.pending = .command c :: rest) : step s = .next { s with pending := rest }.fatal := by
  rw [step_command s c rest hp]
  exact exec_violation (isCommand_decodeCommand c) (State.violates_of_fault _ _ hf)

/-- Settles O43, by induction on the number of commands: each is taken with a FATAL, which leaves FAULT set. -/
theorem faultAnswersFatalUntilReset : Obligations.FaultAnswersFatalUntilReset := by
  intro n
  induction n with
  | zero =>
    intro s _ _ _
    simp
  | succ n ih =>
    intro s hf hlen hno
    match hp : s.pending with
    | [] => simp [hp] at hlen
    | .reset :: rest => simp [hp] at hno
    | .command c :: rest =>
      have hlen' : n ≤ rest.length := by simpa [hp] using hlen
      have hno' : .reset ∉ rest.take n := by simpa [hp] using hno
      rw [runFor_succ n s _ (step_faulted hf hp), ih _ rfl hlen' hno']
      simp [State.fatal, State.respond, hf, List.replicate_succ]

end Sys2Proof.Machine
end

section
/-! PROOFS. The numbers of the encoding and of reset (spec/30_encoding.md R65; spec/10_state.md R28; D3, D13, D22). -/

namespace Sys2Proof.Machine

/-- Settles O37: each clause is one line of `Response.status` or of `frameTag`. -/
theorem statusCodesAreFixed : Obligations.StatusCodesAreFixed :=
  ⟨fun _ => rfl, rfl, rfl, rfl, fun _ _ => rfl, fun _ _ => rfl⟩

/-- Settles O49: each clause is one field of `State.reset`. -/
theorem resetLeavesUninitialized : Obligations.ResetLeavesUninitialized := ⟨rfl, rfl, rfl, rfl, rfl⟩

end Sys2Proof.Machine
end
